-- ==== Sys2Proof/Syntax.lean ====
section
/-! DEFINITION. The twelve commands of the engine, one constructor per row of the opcode map
(30_encoding.md R143). -/

namespace Sys2Proof

/-- A command of the engine. `cbFeed` and `macTile` carry the tile size operand `n`, the field
`N` of the command word (30_encoding.md R141, R142); no other command has an operand in its
encoding. -/
inductive Instr where
  /-- NOP, 46_conv_sequencer.md R350. -/
  | nop
  /-- GETSIZE, 40_planner.md R171. -/
  | getsize
  /-- BEGIN, 46_conv_sequencer.md R351. -/
  | callBegin
  /-- END, 46_conv_sequencer.md R354. -/
  | callEnd
  /-- CONV, 46_conv_sequencer.md R356. -/
  | conv
  /-- DECOMP, 45_decomposer.md R330. -/
  | decomp
  /-- CB_INIT, 41_circular_buffer.md R192. -/
  | cbInit
  /-- CB_FEED n, 41_circular_buffer.md R194. -/
  | cbFeed (n : Nat)
  /-- KS_CLEAR, 42_kernel_stager.md R231. -/
  | ksClear
  /-- KSTAGE, 42_kernel_stager.md R232. -/
  | kstage
  /-- MAC_TILE n, 43_compute_loop.md R250. -/
  | macTile (n : Nat)
  /-- REQ_WRITE, 44_requantization.md R280. -/
  | reqWrite
deriving DecidableEq, Repr

end Sys2Proof
end

