-- ==== Sys2Proof/WellFormed.lean ====
section
/-! DEFINITION. Which command terms an encoding exists for (30_encoding.md R141, R145). -/

namespace Sys2Proof

/-- The tile size operand is an unsigned 8-bit field (30_encoding.md R141: "unsigned 0 … 255").
That 1 ≤ n ≤ R_ITER is checked by the command itself, not by the encoding (R145). -/
def operandFits (n : Nat) : Bool := decide (n < 256)

/-- A command term is well formed when its operand, if it has one, fits the field `N`. -/
def wellFormed (i : Instr) : Bool :=
  match i with
  | .cbFeed n => operandFits n
  | .macTile n => operandFits n
  | .nop => true
  | .getsize => true
  | .callBegin => true
  | .callEnd => true
  | .conv => true
  | .decomp => true
  | .cbInit => true
  | .ksClear => true
  | .kstage => true
  | .reqWrite => true

end Sys2Proof
end

