-- ==== Sys2Proof/Word.lean ====
section
/-! DEFINITION. The two word types of the machine: a byte of memory and a 32-bit register
(00_scope.md R10 REG_W, R11). -/

namespace Sys2Proof

/-- One byte of the flat memory space (20_memory.md R100). -/
abbrev Byte := BitVec 8

/-- One register of the register file (10_state.md R32). Bit 0 is the least significant bit (R11). -/
abbrev Word := BitVec 32

end Sys2Proof
end

