-- ==== Sys2Proof/Decode.lean ====
section
/-! DEFINITION. The decoder and the encoder of the command word (30_encoding.md R141 to R145),
and the decodings of words written out from the spec's opcode map. -/

namespace Sys2Proof

/-- Why a word is not a command (30_encoding.md R144). The engine ends all three alike, with E_CMD. -/
inductive DecodeError where
  /-- `RSV`, bits [31:16], is not 0. -/
  | reservedBits
  /-- `OPC`, bits [7:0], is not one of the twelve opcodes. -/
  | unknownOpcode
  /-- `N`, bits [15:8], is not 0 in a command that takes no operand. -/
  | operandNotAllowed
deriving DecidableEq, Repr

/-- Field `OPC` (R141). -/
def opcField (w : Word) : Nat := (w.extractLsb' 0 8).toNat

/-- Field `N` (R141), zero-extended (R142). -/
def operandField (w : Word) : Nat := (w.extractLsb' 8 8).toNat

/-- Field `RSV` (R141). -/
def reservedField (w : Word) : Nat := (w.extractLsb' 16 16).toNat

/-- A command without an operand is legal only with `N` = 0 (R141, R144). -/
def decodePlain (n : Nat) (i : Instr) : Except DecodeError Instr :=
  if n = 0 then .ok i else .error .operandNotAllowed

/-- The command a word written to CMD encodes, or why it is illegal (30_encoding.md R143, R144). -/
def decode (w : Word) : Except DecodeError Instr :=
  if reservedField w ≠ 0 then .error .reservedBits
  else match opcField w with
    | 0x00 => decodePlain (operandField w) .nop
    | 0x01 => decodePlain (operandField w) .getsize
    | 0x02 => decodePlain (operandField w) .callBegin
    | 0x03 => decodePlain (operandField w) .callEnd
    | 0x04 => decodePlain (operandField w) .conv
    | 0x08 => decodePlain (operandField w) .decomp
    | 0x10 => decodePlain (operandField w) .cbInit
    | 0x11 => .ok (.cbFeed (operandField w))
    | 0x18 => decodePlain (operandField w) .ksClear
    | 0x19 => decodePlain (operandField w) .kstage
    | 0x20 => .ok (.macTile (operandField w))
    | 0x28 => decodePlain (operandField w) .reqWrite
    | _ => .error .unknownOpcode

/-- The opcode of a command (30_encoding.md R143). -/
def opcode (i : Instr) : Nat :=
  match i with
  | .nop => 0x00
  | .getsize => 0x01
  | .callBegin => 0x02
  | .callEnd => 0x03
  | .conv => 0x04
  | .decomp => 0x08
  | .cbInit => 0x10
  | .cbFeed _ => 0x11
  | .ksClear => 0x18
  | .kstage => 0x19
  | .macTile _ => 0x20
  | .reqWrite => 0x28

/-- The value of field `N` in a command's word (30_encoding.md R141). -/
def operandOf (i : Instr) : Nat :=
  match i with
  | .cbFeed n => n
  | .macTile n => n
  | .nop => 0
  | .getsize => 0
  | .callBegin => 0
  | .callEnd => 0
  | .conv => 0
  | .decomp => 0
  | .cbInit => 0
  | .ksClear => 0
  | .kstage => 0
  | .reqWrite => 0

/-- The word of a well-formed command: {RSV = 0, N, OPC} (30_encoding.md R141, R147). -/
def encode (i : Instr) : Word :=
  (0 : BitVec 16) ++ (BitVec.ofNat 8 (operandOf i)) ++ (BitVec.ofNat 8 (opcode i))

/-- The mask of a command's row in the opcode map (30_encoding.md R143): the rows with an operand
leave bits [15:8] free. -/
def rowMask (i : Instr) : Word :=
  match i with
  | .cbFeed _ => 0xFFFF00FF
  | .macTile _ => 0xFFFF00FF
  | .nop => 0xFFFFFFFF
  | .getsize => 0xFFFFFFFF
  | .callBegin => 0xFFFFFFFF
  | .callEnd => 0xFFFFFFFF
  | .conv => 0xFFFFFFFF
  | .decomp => 0xFFFFFFFF
  | .cbInit => 0xFFFFFFFF
  | .ksClear => 0xFFFFFFFF
  | .kstage => 0xFFFFFFFF
  | .reqWrite => 0xFFFFFFFF

/-- The match value of a command's row in the opcode map (30_encoding.md R143). -/
def rowMatch (i : Instr) : Word := BitVec.ofNat 32 (opcode i)

/-- The command the decoder reads from a word of the opcode table, numbered as the table numbers its
bits: bit 0 is the least significant bit of the one 32-bit command word (30_encoding.md R141). -/
def decodeTableWord (nbits w : Nat) : Option Instr :=
  match decode (BitVec.ofNat 32 (w % 2 ^ nbits)) with
  | .ok i => some i
  | .error _ => none

/-! Words written out from 30_encoding.md R143 and R149 and from 96_component_vectors.md section 8.1. -/

theorem decode_nop_word : decode 0x00000000 = .ok .nop := by decide
theorem decode_getsize_word : decode 0x00000001 = .ok .getsize := by decide
theorem decode_begin_word : decode 0x00000002 = .ok .callBegin := by decide
theorem decode_end_word : decode 0x00000003 = .ok .callEnd := by decide
theorem decode_conv_word : decode 0x00000004 = .ok .conv := by decide
theorem decode_decomp_word : decode 0x00000008 = .ok .decomp := by decide
theorem decode_cb_init_word : decode 0x00000010 = .ok .cbInit := by decide
theorem decode_cb_feed_word : decode 0x00000211 = .ok (.cbFeed 2) := by decide
theorem decode_ks_clear_word : decode 0x00000018 = .ok .ksClear := by decide
theorem decode_kstage_word : decode 0x00000019 = .ok .kstage := by decide
theorem decode_mac_tile_word : decode 0x00000120 = .ok (.macTile 1) := by decide
theorem decode_req_write_word : decode 0x00000028 = .ok .reqWrite := by decide

end Sys2Proof
end

