-- ==== Sys2Proof/Machine/Arith.lean ====
section
/-! DEFINITION. The integer primitives of the rules: unbounded integers, floor division, the rounding
shift, the two scalings (00_scope.md R12, R13; 44_requantization.md R287, R288, R295). -/

namespace Sys2Proof.Machine

/-- `ceildiv(a, b)` for b > 0 (00_scope.md R12). -/
def ceilDiv (a b : Int) : Int := -((-a) / b)

/-- `align(v, k)` for v ≥ 0, k > 0 (00_scope.md R12). -/
def alignUp (v k : Int) : Int := ceilDiv v k * k

/-- `clamp(v, lo, hi) = max(lo, min(hi, v))` (00_scope.md R12). -/
def clamp (v lo hi : Int) : Int := max lo (min hi v)

/-- `rha(v, s)`: the rounding right shift, half away from zero; an exact left shift for s ≤ 0
(00_scope.md R13; 90_conflicts.md C1). -/
def rha (v s : Int) : Int :=
  if s ≤ 0 then v * 2 ^ (-s).toNat
  else
    let q := ((v.natAbs + 2 ^ (s.toNat - 1)) / 2 ^ s.toNat : Nat)
    if 0 ≤ v then (q : Int) else -(q : Int)

/-- `rq31(acc, M, sh) = rha(acc × M, 31 − sh)`: one exact product, one rounding (44_requantization.md R288). -/
def rq31 (acc m sh : Int) : Int := rha (acc * m) (31 - sh)

/-- `reduce15(M)`: the multiplier rounded to 16 bits, saturated to 0x7FFF (44_requantization.md R287). -/
def reduce15 (m : Int) : Int := if 0x7FFF0000 ≤ m then 0x7FFF else (m + 2 ^ 15) / 2 ^ 16

/-- `sext_64(v)`: the low 64 bits of v read as two's complement (00_scope.md R15). -/
def sext64 (v : Int) : Int := (BitVec.ofInt 64 v).toInt

/-- v is outside range(s64) (00_scope.md R14; 43_compute_loop.md R254). -/
def outside64 (v : Int) : Bool := decide (v < -(2 ^ 63)) || decide (2 ^ 63 ≤ v)

end Sys2Proof.Machine
end

