-- ==== Sys2Proof/Config.lean ====
section
/-! DEFINITION. What an implementation fixes (00_scope.md R10, 92_eei_decisions.md open parameters),
the constants of the register file, and the one free value of the model. -/

namespace Sys2Proof.Config

/-- The three open implementation parameters of 00_scope.md R10 (93_implementation_defined.md U14:
"a named model argument"). They stand in `State` so that every statement is about every choice of
them; no step changes them (log 7). -/
structure Params where
  /-- `R_ITER`: the largest number of ring-axis outputs of one tile. -/
  rIter : Nat
  /-- `KW_ALIGN`: staged kernel lines are padded to a multiple of this many elements. -/
  kwAlign : Nat
  /-- `HDR_BYTES`: size of the state header of the scratch region. -/
  hdrBytes : Nat
deriving DecidableEq, Repr

/-- The values this hardware instance uses (00_scope.md R10). -/
def defaultParams : Params := { rIter := 2, kwAlign := 4, hdrBytes := 64 }

/-- The constraints on the open parameters (92_eei_decisions.md, open parameters). -/
def Params.ok (p : Params) : Bool :=
  decide (2 ≤ p.rIter) && decide (p.rIter ≤ 255) && decide (1 ≤ p.kwAlign) &&
    decide (p.kwAlign ≤ 255) && decide (p.hdrBytes % 8 = 0) && decide (p.hdrBytes ≤ 65528)

/-- `ID` always reads this value (10_state.md R34). -/
def idValue : Word := 0x44570407

/-- `COUNT_MAX`, the largest value a 32-bit signed count may take (00_scope.md R10). -/
def countMax : Int := 2 ^ 31 - 1

/-- `ACC_ENTRY_BYTES`, the size of one accumulator-staging entry (00_scope.md R10). -/
def accEntryBytes : Int := 8

/-- The number of bytes of the one memory space (20_memory.md R100). -/
def addressSpace : Nat := 2 ^ 32

/-- FREE VALUE. The byte that address `addr` of a released scratch region holds after draw number
`draw` (93_implementation_defined.md U7: "any value"; 46_conv_sequencer.md R361). It has no body: no
proof can know it (log 3). -/
opaque freeByte (draw addr : Nat) : Byte

end Sys2Proof.Config
end

