-- ==== Sys2Proof/Machine/State.lean ====
section
/-! DEFINITION. The state of the machine as plain data: the register file of 10_state.md, the memory
of 20_memory.md, the host's transactions still to come, and the reasons a step can stop. -/

namespace Sys2Proof.Machine

/-- Reasons the machine stops with a fault. No command ever does: an error of a command is a next
state (60_exceptions.md R390, R398). -/
inductive Fault where
  /-- Raised by the host bus (`memStore`, `memLoad`) when a host memory access names an address that
  does not exist, 2^32 or above (20_memory.md R100: "a flat array of 2^32 bytes"). SAFE: the model
  stops where the spec has no machine. -/
  | noSuchAddress
deriving DecidableEq, Repr

/-- Reasons the model refuses to go on: breaches of the host's duties for which the spec defines no
behaviour and tells a model to refuse (60_exceptions.md R390, 70_reset_and_hazards.md R440). -/
inductive Refusal where
  /-- Raised by an instruction that has no meaning in the model. SAFE. No instruction of this model
  raises it. -/
  | notModelled (mnemonic : String)
  /-- Raised by BEGIN and CONV, once their checks pass, when a region of the call wraps past address
  2^32 - 1 or contains address 0 (20_memory.md R103, 93_implementation_defined.md U5). SAFE: the model
  stops where the hardware may go on. -/
  | regionMisplaced
  /-- Raised by BEGIN and CONV, once their checks pass, when the output tensor or the scratch region
  overlaps another region of the call (20_memory.md R116, 93_implementation_defined.md U4). SAFE: the
  model stops where the hardware may go on. -/
  | regionsOverlap
  /-- Raised by the host bus when the host writes a byte of a region of the open call
  (20_memory.md R122, 93_implementation_defined.md U6). SAFE: the model stops where the hardware may
  go on. -/
  | hostWroteOwnedRegion
deriving DecidableEq, Repr

/-- The cause codes of a command error (60_exceptions.md R393). -/
inductive Cause where
  /-- E_NULL_PTR, code 1. -/
  | nullPtr
  /-- E_MISALIGNED, code 2. -/
  | misaligned
  /-- E_SIZE, code 3. -/
  | size
  /-- E_PAD, code 4. -/
  | pad
  /-- E_SHIFT, code 5. -/
  | shift
  /-- E_ZP, code 6. -/
  | zeroPoint
  /-- E_LAYOUT, code 7. -/
  | layout
  /-- E_PREC, code 8. -/
  | precision
  /-- E_CAPACITY, code 9. -/
  | capacity
  /-- E_CLAMP, code 10. -/
  | clampRange
  /-- E_SEQ, code 16. -/
  | sequence
  /-- E_CMD, code 17. -/
  | command
  /-- E_CTX, code 18. -/
  | context
  /-- E_UNDERRUN, code 19. -/
  | underrun
deriving DecidableEq, Repr

/-- What `raise Err(cause, info)` reports (60_exceptions.md R391). -/
structure CmdError where
  /-- The cause, written to `CAUSE` as its code. -/
  cause : Cause
  /-- The detail, written to `CAUSE_INFO` modulo 2^32. -/
  info : Nat
deriving DecidableEq, Repr

/-- `STATUS.CB_STATE` (10_state.md R36, 41_circular_buffer.md R190): the fourth value never occurs. -/
inductive CbState where
  /-- Uninitialized, code 0. -/
  | uninitialized
  /-- Primed, code 1. -/
  | primed
  /-- Streaming, code 2. -/
  | streaming
deriving DecidableEq, Repr

/-- The fields of `STATUS` (10_state.md R36). Reserved bits and `BUSY` always read 0 and have no
storage; software cannot write any field but by clearing the three sticky ones (R59). -/
structure Status where
  /-- `CB_STATE`, bits [1:0]. -/
  cbState : CbState
  /-- `OPEN`, bit 2: a call is open. -/
  callOpen : Bool
  /-- `DEC_VALID`, bit 3. -/
  decValid : Bool
  /-- `KPAD_VALID`, bit 4. -/
  kpadValid : Bool
  /-- `KS_VALID`, bit 5. -/
  ksValid : Bool
  /-- `ACC_VALID`, bit 6. -/
  accValid : Bool
  /-- `ERR`, bit 8, sticky. -/
  err : Bool
  /-- `UNDERRUN`, bit 9, sticky. -/
  underrun : Bool
  /-- `ACC_OVF`, bit 10, sticky. -/
  accOvf : Bool
deriving DecidableEq, Repr

/-- The configuration registers, class CFG (10_state.md R33, section 2.2). -/
structure Cfg where
  /-- `IN_PTR` (0x08), 10_state.md R40. -/
  inPtr : Word
  /-- `KER_PTR` (0x09), 10_state.md R40. -/
  kerPtr : Word
  /-- `BIAS_PTR` (0x0A), 10_state.md R40. -/
  biasPtr : Word
  /-- `OUT_PTR` (0x0B), 10_state.md R40. -/
  outPtr : Word
  /-- `SCRATCH_PTR` (0x0C), 10_state.md R40. -/
  scratchPtr : Word
  /-- `MULT_PTR` (0x0D), 10_state.md R40. -/
  multPtr : Word
  /-- `SHIFT_PTR` (0x0E), 10_state.md R40. -/
  shiftPtr : Word
  /-- `IN_H` (0x10), 10_state.md R41. -/
  inH : Word
  /-- `IN_W` (0x11), 10_state.md R41. -/
  inW : Word
  /-- `IN_C` (0x12), 10_state.md R41. -/
  inC : Word
  /-- `OUT_H` (0x13), 10_state.md R41. -/
  outH : Word
  /-- `OUT_W` (0x14), 10_state.md R41. -/
  outW : Word
  /-- `K_H` (0x15), 10_state.md R42. -/
  kH : Word
  /-- `K_W` (0x16), 10_state.md R42. -/
  kW : Word
  /-- `CH_MULT` (0x17), 10_state.md R42. -/
  chMult : Word
  /-- `STRIDE_X` (0x18), 10_state.md R42. -/
  strideX : Word
  /-- `STRIDE_Y` (0x19), 10_state.md R42. -/
  strideY : Word
  /-- `DIL_X` (0x1A), 10_state.md R42. -/
  dilX : Word
  /-- `DIL_Y` (0x1B), 10_state.md R42. -/
  dilY : Word
  /-- `PAD_X` (0x1C), 10_state.md R42. -/
  padX : Word
  /-- `PAD_Y` (0x1D), 10_state.md R42. -/
  padY : Word
  /-- `LAYOUT` (0x1E), 10_state.md R43. -/
  layout : Word
  /-- `PREC` (0x1F), 10_state.md R44. -/
  prec : Word
  /-- `IN_ZB` (0x20), 10_state.md R45. -/
  inZb : Word
  /-- `KER_ZB` (0x21), 10_state.md R45. -/
  kerZb : Word
  /-- `OUT_ZP` (0x22), 10_state.md R45. -/
  outZp : Word
  /-- `OUT_MULT` (0x23), 10_state.md R46. -/
  outMult : Word
  /-- `OUT_SHIFT` (0x24), 10_state.md R46. -/
  outShift : Word
  /-- `ACC_SHIFT` (0x25), 10_state.md R47. -/
  accShift : Word
  /-- `BIAS_SHIFT` (0x26), 10_state.md R47. -/
  biasShift : Word
  /-- `OUT_MIN` (0x27), 10_state.md R48. -/
  outMin : Word
  /-- `OUT_MAX` (0x28), 10_state.md R48. -/
  outMax : Word
deriving DecidableEq, Repr

/-- The context registers, class CTX (10_state.md R49). -/
structure Ctx where
  /-- `CTX_IC` (0x30): the input channel. -/
  ic : Word
  /-- `CTX_M` (0x31): the multiplier index. -/
  m : Word
  /-- `CTX_RES` (0x32): the residue class. -/
  res : Word
  /-- `CTX_J0` (0x33): the first output of the current tile. -/
  j0 : Word
deriving DecidableEq, Repr

/-- The stored read-only registers (10_state.md section 2.4). The window registers `WIN_OLDEST`,
`WIN_BEGIN`, `WIN_END` are functions of others and have no storage (R53). -/
structure Book where
  /-- `DEC_G` (0x38), 10_state.md R50. -/
  decG : Word
  /-- `DEC_COUNT` (0x39), 10_state.md R50. -/
  decCount : Word
  /-- `DEC_RSTRIDE` (0x3A), 10_state.md R50. -/
  decRstride : Word
  /-- `SUB_NOUT` (0x3B), 10_state.md R51. -/
  subNout : Word
  /-- `SUB_LEAD` (0x3C), 10_state.md R51. -/
  subLead : Word
  /-- `SUB_NENT` (0x3D), 10_state.md R51. -/
  subNent : Word
  /-- `CB_CAP` (0x40), 10_state.md R52. -/
  cbCap : Word
  /-- `CB_CURSOR` (0x41), 10_state.md R52. -/
  cbCursor : Word
  /-- `CB_VALID` (0x42), 10_state.md R52. -/
  cbValid : Word
  /-- `CB_FED` (0x43), 10_state.md R52. -/
  cbFed : Word
  /-- `CB_ENTRY_BYTES` (0x44), 10_state.md R52. -/
  cbEntryBytes : Word
  /-- `CB_LINE` (0x45), 10_state.md R52. -/
  cbLine : Word
  /-- `FEED_ADD` (0x49), 10_state.md R54. -/
  feedAdd : Word
  /-- `FEED_REAL` (0x4A), 10_state.md R54. -/
  feedReal : Word
  /-- `ACC_J0` (0x4B), 10_state.md R54. -/
  accJ0 : Word
  /-- `ACC_N` (0x4C), 10_state.md R54. -/
  accN : Word
  /-- `LAY_CB` (0x50), 10_state.md R55. -/
  layCb : Word
  /-- `LAY_KS` (0x51), 10_state.md R55. -/
  layKs : Word
  /-- `LAY_ACC` (0x52), 10_state.md R55. -/
  layAcc : Word
  /-- `LAY_TOTAL` (0x53), 10_state.md R55. -/
  layTotal : Word
  /-- `LAY_KCPAD` (0x54), 10_state.md R55. -/
  layKcpad : Word
deriving DecidableEq, Repr

/-- Memory (20_memory.md R100). `cells` lists the bytes that differ from what an unlisted address
reads as; `unspec` lists the addresses whose byte is unspecified, each with the number of the draw
that made it so (93_implementation_defined.md U7, log 3). Both are kept in one canonical form
(`Memory.wf`), so that equal memories are equal data. -/
structure Memory where
  /-- (address, byte) pairs, addresses strictly rising, no byte equal to `Memory.unlisted`. -/
  cells : List Host.Cell
  /-- (address, draw) pairs, addresses strictly rising, none of them in `cells`. -/
  unspec : List (Nat × Nat)
deriving DecidableEq, Repr

/-- A transaction of the host (30_encoding.md R140 and R147; 00_scope.md R4 for its ordinary memory
accesses; 70_reset_and_hazards.md R430 for reset, which comes from outside between commands). -/
inductive HostTxn where
  /-- `RegWrite(no, w)`. -/
  | regWrite (no : Nat) (w : Word)
  /-- `RegRead(no)`. -/
  | regRead (no : Nat)
  /-- The host stores the listed bytes at consecutive addresses from `addr` (`mem8`, R147). -/
  | memStore (addr : Nat) (bytes : List Byte)
  /-- The host loads `len` bytes from consecutive addresses from `addr` (`chk8`, R147). -/
  | memLoad (addr len : Nat)
  /-- The reset input. -/
  | reset
deriving DecidableEq, Repr

/-- What the last reading transaction returned to the host. -/
inductive Reply where
  /-- No reading transaction yet. -/
  | none
  /-- The value of a `RegRead`. -/
  | word (w : Word)
  /-- The bytes of a host memory load, lowest address first. -/
  | bytes (bs : List Byte)
deriving DecidableEq, Repr

/-- The whole state (10_state.md R30: the register file and the memory), with the implementation
parameters it is built with and, as the model's own fields, the host's side of the interface. -/
structure State where
  /-- The implementation parameters (00_scope.md R10), read by the host through `PARAM` (R39). -/
  params : Config.Params
  /-- `STATUS` (0x02). -/
  status : Status
  /-- `RESULT_LO` (0x03). -/
  resultLo : Word
  /-- `RESULT_HI` (0x04). -/
  resultHi : Word
  /-- `CAUSE` (0x05). -/
  cause : Word
  /-- `CAUSE_INFO` (0x06). -/
  causeInfo : Word
  /-- The CFG registers. -/
  cfg : Cfg
  /-- The CTX registers. -/
  ctx : Ctx
  /-- The stored RO registers. -/
  book : Book
  /-- The memory. -/
  mem : Memory
  /-- MODEL: how many times scratch bytes have become unspecified (log 4). -/
  freeDraws : Nat
  /-- MODEL: the host's transactions still to come, oldest first (log 1). -/
  hostQueue : List HostTxn
  /-- MODEL: what the last reading transaction returned (log 14). -/
  reply : Reply
deriving DecidableEq, Repr

/-- `STATUS` after reset: 0 (10_state.md R79). -/
def Status.atReset : Status :=
  { cbState := .uninitialized, callOpen := false, decValid := false, kpadValid := false,
    ksValid := false, accValid := false, err := false, underrun := false, accOvf := false }

/-- The CFG registers after reset: all 0 (10_state.md R79). -/
def Cfg.atReset : Cfg :=
  { inPtr := 0, kerPtr := 0, biasPtr := 0, outPtr := 0, scratchPtr := 0, multPtr := 0,
    shiftPtr := 0, inH := 0, inW := 0, inC := 0, outH := 0, outW := 0, kH := 0, kW := 0,
    chMult := 0, strideX := 0, strideY := 0, dilX := 0, dilY := 0, padX := 0, padY := 0,
    layout := 0, prec := 0, inZb := 0, kerZb := 0, outZp := 0, outMult := 0, outShift := 0,
    accShift := 0, biasShift := 0, outMin := 0, outMax := 0 }

/-- The CTX registers after reset: all 0 (10_state.md R79). -/
def Ctx.atReset : Ctx := { ic := 0, m := 0, res := 0, j0 := 0 }

/-- The stored RO registers after reset: all 0 (10_state.md R79). -/
def Book.atReset : Book :=
  { decG := 0, decCount := 0, decRstride := 0, subNout := 0, subLead := 0, subNent := 0,
    cbCap := 0, cbCursor := 0, cbValid := 0, cbFed := 0, cbEntryBytes := 0, cbLine := 0,
    feedAdd := 0, feedReal := 0, accJ0 := 0, accN := 0, layCb := 0, layKs := 0, layAcc := 0,
    layTotal := 0, layKcpad := 0 }

/-- Memory with nothing listed and nothing unspecified. -/
def Memory.empty : Memory := { cells := [], unspec := [] }

/-- The machine right after reset with the given implementation parameters (10_state.md R79, R80). -/
def State.resetWith (p : Config.Params) : State :=
  { params := p, status := .atReset, resultLo := 0, resultHi := 0, cause := 0, causeInfo := 0,
    cfg := .atReset, ctx := .atReset, book := .atReset, mem := .empty, freeDraws := 0,
    hostQueue := [], reply := .none }

/-- The machine right after reset, built with the parameters of 00_scope.md R10: `PARAM` reads
0x00400402 and every register but `ID` and `PARAM` is 0 (10_state.md R79). -/
def State.reset : State := State.resetWith Config.defaultParams

end Sys2Proof.Machine
end

