-- ==== Sys2Proof/Machine/Ops.lean ====
section
/-! DEFINITION. The named operations over memory (20_memory.md) and the two ways a command ends
(60_exceptions.md R391, R392). -/

namespace Sys2Proof.Machine

/-! Lists of (key, value) pairs, the representation of both parts of a memory. -/

/-- The value listed under a key. -/
def lookupKey {α : Type} (k : Nat) : List (Nat × α) → Option α
  | [] => none
  | (a, v) :: t => if k = a then some v else lookupKey k t

/-- List a value under a key, at its place in rising order. -/
def putKey {α : Type} (k : Nat) (v : α) : List (Nat × α) → List (Nat × α)
  | [] => [(k, v)]
  | (a, w) :: t =>
    if k < a then (k, v) :: (a, w) :: t
    else if k = a then (k, v) :: t
    else (a, w) :: putKey k v t

/-- Remove a key. -/
def dropKey {α : Type} (k : Nat) : List (Nat × α) → List (Nat × α)
  | [] => []
  | (a, v) :: t => if k = a then dropKey k t else (a, v) :: dropKey k t

/-- Keys strictly rising, all at or above `lo` and below 2^32. -/
def keysRise {α : Type} (lo : Nat) : List (Nat × α) → Bool
  | [] => true
  | (a, _) :: t => decide (lo ≤ a) && decide (a < Config.addressSpace) && keysRise (a + 1) t

/-- What a byte that nothing has written reads as. The spec assumes nothing about memory after
power-on (10_state.md R80). DESIGN CHOICE 0, unsafe (log 2). -/
def Memory.unlisted : Byte := 0

/-- The canonical form: both lists rise, no listed byte equals what an unlisted address reads as, and
no address is both listed and unspecified. -/
def Memory.wf (m : Memory) : Bool :=
  keysRise 0 m.cells && keysRise 0 m.unspec &&
    m.cells.all (fun c => c.2 != Memory.unlisted && (lookupKey c.1 m.unspec).isNone)

/-- The byte at an address below 2^32: a listed byte, the free byte of an unspecified address, or what
an unlisted address reads as. -/
def Memory.read (m : Memory) (a : Nat) : Byte :=
  match lookupKey a m.cells with
  | some b => b
  | none =>
    match lookupKey a m.unspec with
    | some draw => Config.freeByte draw a
    | none => Memory.unlisted

/-- Store a byte; the byte is then specified again. -/
def Memory.write (m : Memory) (a : Nat) (b : Byte) : Memory :=
  { cells := if b = Memory.unlisted then dropKey a m.cells else putKey a b m.cells
    unspec := dropKey a m.unspec }

/-- The byte at an address becomes unspecified, under the given draw (93_implementation_defined.md U7). -/
def Memory.forget (m : Memory) (draw a : Nat) : Memory :=
  { cells := dropKey a m.cells
    unspec := putKey a draw m.unspec }

/-- The address `a` as the address of a byte: addresses are taken modulo 2^32 (20_memory.md R102, R103). -/
def wrapAddr (a : Nat) : Nat := a % Config.addressSpace

/-- `MemRead(addr, n)`, little-endian (20_memory.md R102). -/
def Memory.readLE (m : Memory) (addr : Nat) : Nat → Nat
  | 0 => 0
  | n + 1 => (m.read (wrapAddr addr)).toNat + 256 * Memory.readLE m (addr + 1) n

/-- `MemWrite(addr, n, v)`, little-endian: the low 8n bits of v (20_memory.md R102). -/
def Memory.writeLE (m : Memory) (addr : Nat) : Nat → Int → Memory
  | 0, _ => m
  | n + 1, v => Memory.writeLE (m.write (wrapAddr addr) (BitVec.ofInt 8 v)) (addr + 1) n (v / 256)

/-- One element store of a command: `len` bytes at `addr`, the low 8·len bits of `val`. -/
structure Store where
  /-- The byte address. -/
  addr : Nat
  /-- The width in bytes. -/
  len : Nat
  /-- The value: an integer, or a binary32 bit pattern. -/
  val : Int
deriving DecidableEq, Repr

/-- The stores of a command, made one after the other. -/
def Memory.applyStores (m : Memory) (stores : List Store) : Memory :=
  stores.foldl (fun m st => m.writeLE st.addr st.len st.val) m

/-- The byte address `a` is one of the bytes of a store. -/
def Store.covers (st : Store) (a : Nat) : Bool :=
  (List.range st.len).any (fun i => a == wrapAddr (st.addr + i))

/-- The byte address `a` is one of the bytes some store of the list writes. -/
def storesCover (stores : List Store) (a : Nat) : Bool := stores.any (fun st => st.covers a)

/-- A host store: the listed bytes at consecutive addresses. -/
def Memory.writeBytes (m : Memory) (addr : Nat) : List Byte → Memory
  | [] => m
  | b :: t => Memory.writeBytes (m.write addr b) (addr + 1) t

/-- A host load: the bytes at consecutive addresses. -/
def Memory.readBytes (m : Memory) (addr len : Nat) : List Byte :=
  (List.range len).map (fun i => m.read (addr + i))

/-- `len` bytes from `addr` become unspecified, all under one draw. -/
def Memory.forgetRange (m : Memory) (draw addr len : Nat) : Memory :=
  (List.range len).foldl (fun m i => m.forget draw (wrapAddr (addr + i))) m

/-! How a command ends. -/

/-- The code of a cause (60_exceptions.md R393). -/
def Cause.code (c : Cause) : Nat :=
  match c with
  | .nullPtr => 1
  | .misaligned => 2
  | .size => 3
  | .pad => 4
  | .shift => 5
  | .zeroPoint => 6
  | .layout => 7
  | .precision => 8
  | .capacity => 9
  | .clampRange => 10
  | .sequence => 16
  | .command => 17
  | .context => 18
  | .underrun => 19

/-- `raise Err(cause, info)`: the one exception entry of the engine (60_exceptions.md R391, R397).
Nothing is saved and nothing is vectored. -/
def State.raiseErr (e : CmdError) (s : State) : State :=
  { s with
    resultLo := 0xFFFFFFFF
    resultHi := 0xFFFFFFFF
    cause := BitVec.ofNat 32 e.cause.code
    causeInfo := BitVec.ofNat 32 e.info
    status := { s.status with err := true } }

/-- `done(v)` (60_exceptions.md R392). -/
def State.finish (v : Int) (s : State) : State :=
  { s with
    resultLo := BitVec.ofInt 32 v
    resultHi := BitVec.ofInt 32 (v / 2 ^ 32)
    cause := 0
    causeInfo := 0 }

/-- `RESULT = sext_64({RESULT_HI, RESULT_LO})` (10_state.md R37). -/
def State.resultValue (s : State) : Int := (s.resultHi ++ s.resultLo : BitVec 64).toInt

/-- A check that fails with an error when its test is false. -/
def require (test : Bool) (cause : Cause) (info : Nat) : Option CmdError :=
  if test then none else some { cause := cause, info := info }

/-- The first failing check of a list, in order: exactly one cause is reported (60_exceptions.md R394). -/
def firstFailure : List (Option CmdError) → Option CmdError
  | [] => none
  | some e :: _ => some e
  | none :: t => firstFailure t

/-- A command with preconditions: the first failing one ends it with an error and no other effect; if
none fails, the command's effect and `done(0)` (60_exceptions.md R390). -/
def runCommand (pre : Option CmdError) (effect : State → State) (s : State) :
    Host.Outcome State Fault Refusal :=
  match pre with
  | some e => .next (s.raiseErr e)
  | none => .next ((effect s).finish 0)

/-- The stores of a command applied to the state's memory. -/
def State.store (stores : List Store) (s : State) : State :=
  { s with mem := s.mem.applyStores stores }

/-- A scratch region's bytes after its header become unspecified (93_implementation_defined.md U7). -/
def State.releaseBytes (addr len : Nat) (s : State) : State :=
  { s with
    mem := s.mem.forgetRange s.freeDraws addr len
    freeDraws := s.freeDraws + 1 }

end Sys2Proof.Machine
end

