-- ==== Sys2Proof/Machine/Flags.lean ====
section
/-! DEFINITION. The fields of `STATUS`: the word a read returns, what sets and clears each field
(10_state.md R36, R56, R57, R59, R77). -/

namespace Sys2Proof.Machine

/-- The code of a circular buffer state (10_state.md R36). -/
def CbState.code (c : CbState) : Nat :=
  match c with
  | .uninitialized => 0
  | .primed => 1
  | .streaming => 2

/-- A flag at a bit position. -/
def flagBit (b : Bool) (pos : Nat) : Nat := if b then 2 ^ pos else 0

/-- What a read of `STATUS` returns: bits 7, [30:11] and 31 (BUSY) read 0 (10_state.md R36). -/
def Status.toWord (st : Status) : Word :=
  BitVec.ofNat 32
    (st.cbState.code + flagBit st.callOpen 2 + flagBit st.decValid 3 + flagBit st.kpadValid 4 +
      flagBit st.ksValid 5 + flagBit st.accValid 6 + flagBit st.err 8 + flagBit st.underrun 9 +
      flagBit st.accOvf 10)

/-- `Close()`: every state field to 0, the sticky fields kept (46_conv_sequencer.md). -/
def Status.close (st : Status) : Status :=
  { st with
    callOpen := false
    decValid := false
    kpadValid := false
    ksValid := false
    accValid := false
    cbState := .uninitialized }

/-- `Close()` on the machine: no other register and no memory (46_conv_sequencer.md). -/
def State.close (s : State) : State := { s with status := s.status.close }

/-- A host write of `w` to `STATUS`: a 1 in bit 8, 9 or 10 clears that sticky field; every other bit is
ignored (10_state.md R59). -/
def Status.clearSticky (st : Status) (w : Word) : Status :=
  { st with
    err := st.err && !w.getLsbD 8
    underrun := st.underrun && !w.getLsbD 9
    accOvf := st.accOvf && !w.getLsbD 10 }

/-- What a write of `CTX_IC` invalidates (10_state.md R57). -/
def Status.dropIc (st : Status) : Status :=
  { st with cbState := .uninitialized, ksValid := false, accValid := false }

/-- What a write of `CTX_M` invalidates (10_state.md R57). -/
def Status.dropM (st : Status) : Status := { st with ksValid := false, accValid := false }

/-- What a write of `CTX_RES` invalidates (10_state.md R57). -/
def Status.dropRes (st : Status) : Status :=
  { st with cbState := .uninitialized, accValid := false }

/-- What a write of `CTX_J0` invalidates (10_state.md R57). -/
def Status.dropJ0 (st : Status) : Status := { st with accValid := false }

/-- A write of `CTX_IC`, by the host or by CONV (10_state.md R57, 46_conv_sequencer.md R356). -/
def State.writeIc (w : Word) (s : State) : State :=
  { s with ctx := { s.ctx with ic := w }, status := s.status.dropIc }

/-- A write of `CTX_M` (10_state.md R57). -/
def State.writeM (w : Word) (s : State) : State :=
  { s with ctx := { s.ctx with m := w }, status := s.status.dropM }

/-- A write of `CTX_RES` (10_state.md R57). -/
def State.writeRes (w : Word) (s : State) : State :=
  { s with ctx := { s.ctx with res := w }, status := s.status.dropRes }

/-- A write of `CTX_J0` (10_state.md R57). -/
def State.writeJ0 (w : Word) (s : State) : State :=
  { s with ctx := { s.ctx with j0 := w }, status := s.status.dropJ0 }

/-! The state preconditions of 46_conv_sequencer.md R362, one column each. -/

/-- "OPEN = 1", else E_SEQ 1. -/
def needOpen (st : Status) : Option CmdError := require st.callOpen .sequence 1

/-- "DEC_VALID = 1", else E_SEQ 2. -/
def needDecomposition (st : Status) : Option CmdError := require st.decValid .sequence 2

/-- "CB_STATE ≠ 0", else E_SEQ 3. -/
def needRing (st : Status) : Option CmdError :=
  require (decide (st.cbState ≠ .uninitialized)) .sequence 3

/-- "KPAD_VALID = 1", else E_SEQ 4. -/
def needKernelPadding (st : Status) : Option CmdError := require st.kpadValid .sequence 4

/-- "KS_VALID = 1", else E_SEQ 5. -/
def needStagedKernel (st : Status) : Option CmdError := require st.ksValid .sequence 5

/-- "ACC_VALID = 1", else E_SEQ 6. -/
def needAccumulators (st : Status) : Option CmdError := require st.accValid .sequence 6

end Sys2Proof.Machine
end

