-- ==== Sys2Proof/Machine/Operands.lean ====
section
/-! DEFINITION. What the commands read: the register file by number (10_state.md R32, R33), the derived
values of 10_state.md section 3, the geometry of 45_decomposer.md R333, the element addresses of
20_memory.md. -/

namespace Sys2Proof.Machine

/-! ## The register file -/

/-- `PARAM`: R_ITER in [7:0], KW_ALIGN in [15:8], HDR_BYTES in [31:16] (10_state.md R39). -/
def paramWord (p : Config.Params) : Word :=
  BitVec.ofNat 32 (p.rIter + 2 ^ 8 * p.kwAlign + 2 ^ 16 * p.hdrBytes)

/-- `WIN_OLDEST` (10_state.md R53): the slot of the oldest valid entry. -/
def State.winOldest (s : State) : Word :=
  if 0 < s.book.cbCap.toInt then
    BitVec.ofInt 32 ((s.book.cbCursor.toInt - s.book.cbValid.toInt) % s.book.cbCap.toInt)
  else 0

/-- `WIN_BEGIN` (10_state.md R53): the byte address of slot 0. -/
def State.winBegin (s : State) : Word := s.cfg.scratchPtr + s.book.layCb

/-- `WIN_END` (10_state.md R53): the byte address one past the last slot. -/
def State.winEnd (s : State) : Word :=
  s.cfg.scratchPtr + s.book.layCb + s.book.cbCap * s.book.cbEntryBytes

/-- `RegRead(no)`: no side effect; CMD and every reserved number read 0 (10_state.md R32, R33, R58). -/
def State.readReg (s : State) (no : Nat) : Word :=
  match no with
  | 0x00 => Config.idValue
  | 0x02 => s.status.toWord
  | 0x03 => s.resultLo
  | 0x04 => s.resultHi
  | 0x05 => s.cause
  | 0x06 => s.causeInfo
  | 0x07 => paramWord s.params
  | 0x08 => s.cfg.inPtr
  | 0x09 => s.cfg.kerPtr
  | 0x0A => s.cfg.biasPtr
  | 0x0B => s.cfg.outPtr
  | 0x0C => s.cfg.scratchPtr
  | 0x0D => s.cfg.multPtr
  | 0x0E => s.cfg.shiftPtr
  | 0x10 => s.cfg.inH
  | 0x11 => s.cfg.inW
  | 0x12 => s.cfg.inC
  | 0x13 => s.cfg.outH
  | 0x14 => s.cfg.outW
  | 0x15 => s.cfg.kH
  | 0x16 => s.cfg.kW
  | 0x17 => s.cfg.chMult
  | 0x18 => s.cfg.strideX
  | 0x19 => s.cfg.strideY
  | 0x1A => s.cfg.dilX
  | 0x1B => s.cfg.dilY
  | 0x1C => s.cfg.padX
  | 0x1D => s.cfg.padY
  | 0x1E => s.cfg.layout
  | 0x1F => s.cfg.prec
  | 0x20 => s.cfg.inZb
  | 0x21 => s.cfg.kerZb
  | 0x22 => s.cfg.outZp
  | 0x23 => s.cfg.outMult
  | 0x24 => s.cfg.outShift
  | 0x25 => s.cfg.accShift
  | 0x26 => s.cfg.biasShift
  | 0x27 => s.cfg.outMin
  | 0x28 => s.cfg.outMax
  | 0x30 => s.ctx.ic
  | 0x31 => s.ctx.m
  | 0x32 => s.ctx.res
  | 0x33 => s.ctx.j0
  | 0x38 => s.book.decG
  | 0x39 => s.book.decCount
  | 0x3A => s.book.decRstride
  | 0x3B => s.book.subNout
  | 0x3C => s.book.subLead
  | 0x3D => s.book.subNent
  | 0x40 => s.book.cbCap
  | 0x41 => s.book.cbCursor
  | 0x42 => s.book.cbValid
  | 0x43 => s.book.cbFed
  | 0x44 => s.book.cbEntryBytes
  | 0x45 => s.book.cbLine
  | 0x46 => s.winOldest
  | 0x47 => s.winBegin
  | 0x48 => s.winEnd
  | 0x49 => s.book.feedAdd
  | 0x4A => s.book.feedReal
  | 0x4B => s.book.accJ0
  | 0x4C => s.book.accN
  | 0x50 => s.book.layCb
  | 0x51 => s.book.layKs
  | 0x52 => s.book.layAcc
  | 0x53 => s.book.layTotal
  | 0x54 => s.book.layKcpad
  | _ => 0

/-- The CFG registers with register number `no` replaced, `none` if `no` is not of class CFG
(10_state.md R33). -/
def Cfg.set (c : Cfg) (no : Nat) (w : Word) : Option Cfg :=
  match no with
  | 0x08 => some { c with inPtr := w }
  | 0x09 => some { c with kerPtr := w }
  | 0x0A => some { c with biasPtr := w }
  | 0x0B => some { c with outPtr := w }
  | 0x0C => some { c with scratchPtr := w }
  | 0x0D => some { c with multPtr := w }
  | 0x0E => some { c with shiftPtr := w }
  | 0x10 => some { c with inH := w }
  | 0x11 => some { c with inW := w }
  | 0x12 => some { c with inC := w }
  | 0x13 => some { c with outH := w }
  | 0x14 => some { c with outW := w }
  | 0x15 => some { c with kH := w }
  | 0x16 => some { c with kW := w }
  | 0x17 => some { c with chMult := w }
  | 0x18 => some { c with strideX := w }
  | 0x19 => some { c with strideY := w }
  | 0x1A => some { c with dilX := w }
  | 0x1B => some { c with dilY := w }
  | 0x1C => some { c with padX := w }
  | 0x1D => some { c with padY := w }
  | 0x1E => some { c with layout := w }
  | 0x1F => some { c with prec := w }
  | 0x20 => some { c with inZb := w }
  | 0x21 => some { c with kerZb := w }
  | 0x22 => some { c with outZp := w }
  | 0x23 => some { c with outMult := w }
  | 0x24 => some { c with outShift := w }
  | 0x25 => some { c with accShift := w }
  | 0x26 => some { c with biasShift := w }
  | 0x27 => some { c with outMin := w }
  | 0x28 => some { c with outMax := w }
  | _ => none

/-- A host write to a CFG register stores the value and closes any open call (10_state.md R56). -/
def State.writeCfg (c : Cfg) (s : State) : State :=
  { s with cfg := c, status := s.status.close }

/-- A host write to any register but CMD: by class, 10_state.md R32, R56 to R59. -/
def State.writeReg (s : State) (no : Nat) (w : Word) : State :=
  match no with
  | 0x02 => { s with status := s.status.clearSticky w }
  | 0x30 => s.writeIc w
  | 0x31 => s.writeM w
  | 0x32 => s.writeRes w
  | 0x33 => s.writeJ0 w
  | _ =>
    match s.cfg.set no w with
    | some c => s.writeCfg c
    | none => s

/-! ## Precisions and element types -/

/-- The six precisions (00_scope.md R2). -/
inductive Prec where
  /-- Tag 0, float32. -/
  | f32
  /-- Tag 1, 8-bit. -/
  | i8
  /-- Tag 2, 16-bit. -/
  | i16
  /-- Tag 3, asymmetric-8 quantized. -/
  | asym8
  /-- Tag 4, per-channel symmetric-8/asymmetric-8 quantized. -/
  | pc8
  /-- Tag 5, symmetric-8×symmetric-16 quantized. -/
  | s8s16
deriving DecidableEq, Repr

/-- The element types (00_scope.md R14). -/
inductive ElemType where
  /-- binary32 -/
  | f32
  /-- signed 8-bit -/
  | s8
  /-- signed 16-bit -/
  | s16
  /-- signed 32-bit -/
  | s32
  /-- signed 64-bit -/
  | s64
deriving DecidableEq, Repr

/-- The precision of a `PREC` register value (00_scope.md R2, 10_state.md R44). -/
def precisionOfTag (tag : Int) : Option Prec :=
  if tag = 0 then some .f32
  else if tag = 1 then some .i8
  else if tag = 2 then some .i16
  else if tag = 3 then some .asym8
  else if tag = 4 then some .pc8
  else if tag = 5 then some .s8s16
  else none

/-- The selected precision. Only a state that no run reaches, an open call with a tag that BEGIN
refuses, takes the last branch (log 9). -/
def Cfg.precision (c : Cfg) : Prec :=
  match precisionOfTag c.prec.toInt with
  | some p => p
  | none => .f32

/-- `size(T)` in bytes (00_scope.md R14). -/
def ElemType.size (t : ElemType) : Nat :=
  match t with
  | .f32 => 4
  | .s8 => 1
  | .s16 => 2
  | .s32 => 4
  | .s64 => 8

/-- `T_in` (10_state.md R62). -/
def Prec.tIn (p : Prec) : ElemType :=
  match p with
  | .f32 => .f32
  | .i8 => .s8
  | .i16 => .s16
  | .asym8 => .s8
  | .pc8 => .s8
  | .s8s16 => .s16

/-- `T_k` (10_state.md R62). -/
def Prec.tK (p : Prec) : ElemType :=
  match p with
  | .f32 => .f32
  | .i8 => .s8
  | .i16 => .s16
  | .asym8 => .s8
  | .pc8 => .s8
  | .s8s16 => .s8

/-- `T_b` (10_state.md R62). -/
def Prec.tB (p : Prec) : ElemType :=
  match p with
  | .f32 => .f32
  | .i8 => .s8
  | .i16 => .s16
  | .asym8 => .s32
  | .pc8 => .s32
  | .s8s16 => .s64

/-- `T_out` (10_state.md R62). -/
def Prec.tOut (p : Prec) : ElemType :=
  match p with
  | .f32 => .f32
  | .i8 => .s8
  | .i16 => .s16
  | .asym8 => .s8
  | .pc8 => .s8
  | .s8s16 => .s16

/-- `es_in` (10_state.md R62). -/
def Prec.esIn (p : Prec) : Int := p.tIn.size

/-- `es_k` (10_state.md R62). -/
def Prec.esK (p : Prec) : Int := p.tK.size

/-- `es_b` (10_state.md R62). -/
def Prec.esB (p : Prec) : Int := p.tB.size

/-- `es_out` (10_state.md R62). -/
def Prec.esOut (p : Prec) : Int := p.tOut.size

/-- The precisions that take multipliers and shifts from the per-channel arrays (10_state.md R40). -/
def Prec.perChannel (p : Prec) : Bool := p == .pc8 || p == .s8s16

/-- The lower end of range(T) of an integer type (00_scope.md R14). -/
def ElemType.lo (t : ElemType) : Int := -(2 ^ (8 * t.size - 1))

/-- The upper end of range(T) of an integer type (00_scope.md R14). -/
def ElemType.hi (t : ElemType) : Int := 2 ^ (8 * t.size - 1) - 1

/-- `Ld(addr, T)` (00_scope.md R15): the value of an integer element, the bit pattern of a binary32
element. -/
def Memory.load (m : Memory) (addr : Nat) (t : ElemType) : Int :=
  match t with
  | .f32 => (m.readLE addr 4 : Int)
  | .s8 => (BitVec.ofNat 8 (m.readLE addr 1)).toInt
  | .s16 => (BitVec.ofNat 16 (m.readLE addr 2)).toInt
  | .s32 => (BitVec.ofNat 32 (m.readLE addr 4)).toInt
  | .s64 => (BitVec.ofNat 64 (m.readLE addr 8)).toInt

/-- `St(addr, T, v)` as one element store (00_scope.md R15). -/
def elemStore (addr : Nat) (t : ElemType) (v : Int) : Store :=
  { addr := addr, len := t.size, val := v }

/-- A pointer register plus a byte offset, modulo 2^32 (20_memory.md R103; pointers are unsigned, R40). -/
def ptrPlus (ptr : Word) (offset : Int) : Nat := (((ptr.toNat : Int) + offset) % 2 ^ 32).toNat

/-- `ZI` (10_state.md R63). -/
def Cfg.zeroIn (c : Cfg) : Int :=
  match c.precision with
  | .asym8 => c.inZb.toInt
  | .pc8 => c.inZb.toInt
  | .f32 => 0
  | .i8 => 0
  | .i16 => 0
  | .s8s16 => 0

/-- `ZK` (10_state.md R63). -/
def Cfg.zeroKer (c : Cfg) : Int :=
  match c.precision with
  | .asym8 => c.kerZb.toInt
  | .pc8 => 0
  | .f32 => 0
  | .i8 => 0
  | .i16 => 0
  | .s8s16 => 0

/-- `PV`, what a ring sample takes outside the tensor (10_state.md R64, 41_circular_buffer.md R193, R204).
For F32 it is the pattern of +0.0. -/
def Cfg.padIn (c : Cfg) : Int := -c.zeroIn

/-- `PK`, what a staged position without a tap holds (10_state.md R64). -/
def Cfg.padKer (c : Cfg) : Int := -c.zeroKer

/-! ## Axes, extents, scratch layout -/

/-- The configuration in ring-axis (a) and cross-axis (c) terms (10_state.md R60). -/
structure Axes where
  /-- `IN_a` -/
  inA : Int
  /-- `IN_c` -/
  inC : Int
  /-- `O_a` -/
  outA : Int
  /-- `O_c` -/
  outC : Int
  /-- `K_a` -/
  kA : Int
  /-- `K_c` -/
  kC : Int
  /-- `S_a` -/
  sA : Int
  /-- `S_c` -/
  sC : Int
  /-- `D_a` -/
  dA : Int
  /-- `D_c` -/
  dC : Int
  /-- `P_a` -/
  pA : Int
  /-- `P_c` -/
  pC : Int
deriving DecidableEq, Repr

/-- LAYOUT = 1: the ring axis is Y (10_state.md R60). -/
def Cfg.channelFirst (c : Cfg) : Bool := decide (c.layout.toInt = 1)

/-- The axis mapping (10_state.md R60). -/
def Cfg.axes (c : Cfg) : Axes :=
  if c.channelFirst then
    { inA := c.inH.toInt, inC := c.inW.toInt, outA := c.outH.toInt, outC := c.outW.toInt,
      kA := c.kH.toInt, kC := c.kW.toInt, sA := c.strideY.toInt, sC := c.strideX.toInt,
      dA := c.dilY.toInt, dC := c.dilX.toInt, pA := c.padY.toInt, pC := c.padX.toInt }
  else
    { inA := c.inW.toInt, inC := c.inH.toInt, outA := c.outW.toInt, outC := c.outH.toInt,
      kA := c.kW.toInt, kC := c.kH.toInt, sA := c.strideX.toInt, sC := c.strideY.toInt,
      dA := c.dilX.toInt, dC := c.dilY.toInt, pA := c.padX.toInt, pC := c.padY.toInt }

/-- `OC` (10_state.md R61). -/
def Cfg.outChannels (c : Cfg) : Int := c.inC.toInt * c.chMult.toInt

/-- A dilated kernel extent (10_state.md R65). -/
def dilatedExtent (k d : Int) : Int := (k - 1) * d + 1

/-- `DKE_a` (10_state.md R65). -/
def Axes.dkeA (x : Axes) : Int := dilatedExtent x.kA x.dA

/-- `DKE_c` (10_state.md R65). -/
def Axes.dkeC (x : Axes) : Int := dilatedExtent x.kC x.dC

/-- `SPAN_c` (10_state.md R66). -/
def Axes.spanC (x : Axes) : Int := (x.outC - 1) * x.sC + x.dkeC

/-- `SPAN_a` (10_state.md R66). -/
def Axes.spanA (x : Axes) : Int := (x.outA - 1) * x.sA + x.dkeA

/-- `LINE` (10_state.md R66). -/
def Axes.line (x : Axes) : Int := max x.spanC (x.pC + x.inC)

/-- `ENTRY_BYTES` (10_state.md R67). -/
def Cfg.entryBytes (c : Cfg) : Int := alignUp (c.axes.line * c.precision.esIn) 8

/-- `CAP` (10_state.md R68). -/
def Cfg.ringCapacity (p : Config.Params) (c : Cfg) : Int :=
  c.axes.dkeA + ((p.rIter : Int) - 1) * c.axes.sA

/-- `RING_BYTES` (10_state.md R69). -/
def Cfg.ringBytes (p : Config.Params) (c : Cfg) : Int := c.ringCapacity p * c.entryBytes

/-- `KCPAD` (10_state.md R70). -/
def Cfg.kernelLine (p : Config.Params) (c : Cfg) : Int := alignUp c.axes.dkeC p.kwAlign

/-- `KS_BYTES` (10_state.md R70). -/
def Cfg.stagingBytes (p : Config.Params) (c : Cfg) : Int :=
  alignUp (c.axes.kA * c.kernelLine p * c.precision.esK) 8

/-- `ACC_BYTES` (10_state.md R71). -/
def Cfg.accBytes (p : Config.Params) (c : Cfg) : Int :=
  p.rIter * c.axes.outC * Config.accEntryBytes

/-- `OFF_CB` (10_state.md R72). -/
def Cfg.offCb (p : Config.Params) : Int := p.hdrBytes

/-- `OFF_KS` (10_state.md R72). -/
def Cfg.offKs (p : Config.Params) (c : Cfg) : Int := Cfg.offCb p + c.ringBytes p

/-- `OFF_ACC` (10_state.md R72). -/
def Cfg.offAcc (p : Config.Params) (c : Cfg) : Int := c.offKs p + c.stagingBytes p

/-- `TOTAL` (10_state.md R72). -/
def Cfg.scratchTotal (p : Config.Params) (c : Cfg) : Int := c.offAcc p + c.accBytes p

/-- The bytes of the input tensor (20_memory.md R103). -/
def Cfg.inputBytes (c : Cfg) : Int :=
  c.inC.toInt * c.inH.toInt * c.inW.toInt * c.precision.esIn

/-- The bytes of the kernel tensor (20_memory.md R103). -/
def Cfg.kernelBytes (c : Cfg) : Int :=
  c.outChannels * c.kH.toInt * c.kW.toInt * c.precision.esK

/-- The bytes of the bias array (20_memory.md R103). -/
def Cfg.biasBytes (c : Cfg) : Int := c.outChannels * c.precision.esB

/-- The bytes of the output tensor (20_memory.md R103). -/
def Cfg.outputBytes (c : Cfg) : Int :=
  c.outChannels * c.outH.toInt * c.outW.toInt * c.precision.esOut

/-- The bytes of the multiplier array and of the shift array (20_memory.md R103). -/
def Cfg.arrayBytes (c : Cfg) : Int := c.outChannels * 4

/-! ## The decomposition of the ring axis -/

/-- `g` (45_decomposer.md R331). -/
def Axes.commonDivisor (x : Axes) : Int := Nat.gcd x.dA.toNat x.sA.toNat

/-- `COUNT` (45_decomposer.md R331). -/
def Axes.classCount (x : Axes) : Int := x.dA / x.commonDivisor

/-- `RS` (45_decomposer.md R331). -/
def Axes.reducedStride (x : Axes) : Int := x.sA / x.commonDivisor

/-- `q(r, n)`, the ring-axis input coordinate of entry number n (45_decomposer.md R333). -/
def Axes.entryCoord (x : Axes) (r n : Int) : Int := r * x.sA - x.pA + n * x.dA

/-- `NSUB(r)`, the number of outputs of class r (45_decomposer.md R333). -/
def Axes.subOutputs (x : Axes) (r : Int) : Int :=
  if x.outA ≤ r then 0 else (x.outA - r + x.classCount - 1) / x.classCount

/-- `NENT(r)`, the number of entries class r consumes (45_decomposer.md R333). -/
def Axes.subEntries (x : Axes) (r : Int) : Int :=
  if x.subOutputs r = 0 then 0 else (x.subOutputs r - 1) * x.reducedStride + x.kA

/-- `LEAD(r)`, the leading entries wholly in the padding (45_decomposer.md R333). -/
def Axes.subLead (x : Axes) (r : Int) : Int :=
  min (x.subEntries r) (max 0 (ceilDiv (x.pA - r * x.sA) x.dA))

/-! ## Element addresses -/

/-- `A_in(ic, y, x)` (20_memory.md R108). -/
def Cfg.inputAddr (c : Cfg) (ic y x : Int) : Nat :=
  ptrPlus c.inPtr (c.precision.esIn *
    (if c.channelFirst then (ic * c.inH.toInt + y) * c.inW.toInt + x
     else (y * c.inW.toInt + x) * c.inC.toInt + ic))

/-- `A_k(oc, ky, kx)` (20_memory.md R109). -/
def Cfg.kernelAddr (c : Cfg) (oc ky kx : Int) : Nat :=
  ptrPlus c.kerPtr (c.precision.esK *
    (if c.channelFirst then (oc * c.kH.toInt + ky) * c.kW.toInt + kx
     else (ky * c.kW.toInt + kx) * c.outChannels + oc))

/-- The address of bias element oc (20_memory.md R110). -/
def Cfg.biasAddr (c : Cfg) (oc : Int) : Nat := ptrPlus c.biasPtr (c.precision.esB * oc)

/-- `A_out(oc, oy, ox)` (20_memory.md R111). -/
def Cfg.outputAddr (c : Cfg) (oc oy ox : Int) : Nat :=
  ptrPlus c.outPtr (c.precision.esOut *
    (if c.channelFirst then (oc * c.outH.toInt + oy) * c.outW.toInt + ox
     else (oy * c.outW.toInt + ox) * c.outChannels + oc))

/-- The address of multiplier element oc (20_memory.md R112). -/
def Cfg.multAddr (c : Cfg) (oc : Int) : Nat := ptrPlus c.multPtr (4 * oc)

/-- The address of shift element oc (20_memory.md R112). -/
def Cfg.shiftAddr (c : Cfg) (oc : Int) : Nat := ptrPlus c.shiftPtr (4 * oc)

/-- `IN_ac(ic, qa, vc)` (20_memory.md R113). -/
def inputElem (c : Cfg) (m : Memory) (ic qa vc : Int) : Int :=
  m.load (if c.channelFirst then c.inputAddr ic qa vc else c.inputAddr ic vc qa) c.precision.tIn

/-- `KER_ac(oc, ta, tc)` (20_memory.md R113). -/
def kernelElem (c : Cfg) (m : Memory) (oc ta tc : Int) : Int :=
  m.load (if c.channelFirst then c.kernelAddr oc ta tc else c.kernelAddr oc tc ta) c.precision.tK

/-- `BIAS(oc)` (20_memory.md R110). -/
def biasElem (c : Cfg) (m : Memory) (oc : Int) : Int := m.load (c.biasAddr oc) c.precision.tB

/-- `MULT(oc)` (20_memory.md R112). -/
def multElem (c : Cfg) (m : Memory) (oc : Int) : Int := m.load (c.multAddr oc) .s32

/-- `SHIFT(oc)` (20_memory.md R112). -/
def shiftElem (c : Cfg) (m : Memory) (oc : Int) : Int := m.load (c.shiftAddr oc) .s32

/-- `A_out_ac(oc, oa, wc)` (20_memory.md R113). -/
def Cfg.outputAddrAc (c : Cfg) (oc oa wc : Int) : Nat :=
  if c.channelFirst then c.outputAddr oc oa wc else c.outputAddr oc wc oa

/-- The output channel of the context registers, `CTX_IC × CH_MULT + CTX_M` (10_state.md R61). -/
def State.contextChannel (s : State) : Int :=
  s.ctx.ic.toInt * s.cfg.chMult.toInt + s.ctx.m.toInt

/-! ## Scratch addresses. The offsets are those BEGIN stored, never recomputed (10_state.md R55, log 8). -/

/-- The address of byte `b` of slot `k`: `slot_addr(k) + b` (10_state.md R74, 41_circular_buffer.md). -/
def State.slotByte (s : State) (k b : Int) : Nat :=
  ptrPlus s.cfg.scratchPtr (s.book.layCb.toInt + k * s.book.cbEntryBytes.toInt + b)

/-- `ks_addr(ta, p)` (10_state.md R76, 42_kernel_stager.md). -/
def State.stagedAddr (s : State) (ta p : Int) : Nat :=
  ptrPlus s.cfg.scratchPtr
    (s.book.layKs.toInt + (ta * s.book.layKcpad.toInt + p) * s.cfg.precision.esK)

/-- `acc_addr(e)` (10_state.md R75, 43_compute_loop.md). -/
def State.accAddr (s : State) (e : Int) : Nat :=
  ptrPlus s.cfg.scratchPtr (s.book.layAcc.toInt + Config.accEntryBytes * e)

/-! ## Regions of a call -/

/-- A region: its first byte and its size in bytes. -/
structure Region where
  /-- The address of the first byte. -/
  base : Nat
  /-- The size in bytes. -/
  size : Nat
deriving DecidableEq, Repr

/-- The region does not contain address 0 and does not wrap past 2^32 − 1 (20_memory.md R103). -/
def Region.placed (r : Region) : Bool :=
  decide (0 < r.base) && decide (r.base + r.size ≤ Config.addressSpace)

/-- No byte is in both regions (20_memory.md R116). -/
def Region.disjoint (r t : Region) : Bool :=
  decide (r.base + r.size ≤ t.base) || decide (t.base + t.size ≤ r.base) ||
    decide (r.size = 0) || decide (t.size = 0)

/-- An address lies in the region. -/
def Region.has (r : Region) (a : Nat) : Bool := decide (r.base ≤ a) && decide (a < r.base + r.size)

/-- A pointer register and a size as a region. -/
def regionAt (ptr : Word) (bytes : Int) : Region := { base := ptr.toNat, size := bytes.toNat }

/-- The output tensor's region (20_memory.md R103). -/
def Cfg.outputRegion (c : Cfg) : Region := regionAt c.outPtr c.outputBytes

/-- The scratch region (20_memory.md R103). -/
def Cfg.scratchRegion (p : Config.Params) (c : Cfg) : Region :=
  regionAt c.scratchPtr (c.scratchTotal p)

/-- The shift array's region (20_memory.md R103). -/
def Cfg.shiftRegion (c : Cfg) : Region := regionAt c.shiftPtr c.arrayBytes

/-- The regions the engine only reads; the arrays only where the precision uses them (10_state.md R40). -/
def Cfg.readRegions (c : Cfg) : List Region :=
  [regionAt c.inPtr c.inputBytes, regionAt c.kerPtr c.kernelBytes, regionAt c.biasPtr c.biasBytes] ++
    (if c.precision.perChannel then [regionAt c.multPtr c.arrayBytes, c.shiftRegion] else [])

/-- All regions of the call (20_memory.md R103). -/
def Cfg.regions (p : Config.Params) (c : Cfg) : List Region :=
  c.outputRegion :: c.scratchRegion p :: c.readRegions

/-- Every region of the call is placed (20_memory.md R103). -/
def Cfg.regionsPlaced (p : Config.Params) (c : Cfg) : Bool :=
  (c.regions p).all Region.placed

/-- The output tensor and the scratch region are disjoint from each other and from every region the
engine only reads; those may overlap one another (20_memory.md R116). -/
def Cfg.regionsDisjoint (p : Config.Params) (c : Cfg) : Bool :=
  c.outputRegion.disjoint (c.scratchRegion p) &&
    c.readRegions.all (fun r => c.outputRegion.disjoint r && (c.scratchRegion p).disjoint r)

end Sys2Proof.Machine
end

