-- ==== Sys2Proof/Machine/Planner.lean ====
section
/-! DEFINITION. The Scratch Layout Planner: the shape and capacity checks and GETSIZE (40_planner.md). -/

namespace Sys2Proof.Machine

/-- The shape registers with their numbers, in ascending order (40_planner.md R172, step S3). -/
def Cfg.sizeRegisters (c : Cfg) : List (Nat × Word) :=
  [(0x10, c.inH), (0x11, c.inW), (0x12, c.inC), (0x13, c.outH), (0x14, c.outW), (0x15, c.kH),
   (0x16, c.kW), (0x17, c.chMult), (0x18, c.strideX), (0x19, c.strideY), (0x1A, c.dilX),
   (0x1B, c.dilY)]

/-- `CheckShape()`, steps S1 to S4 (40_planner.md R172). -/
def checkShape (c : Cfg) : Option CmdError :=
  firstFailure
    ([require (precisionOfTag c.prec.toInt).isSome .precision 0x1F,
      require (decide (c.layout.toInt = 0) || decide (c.layout.toInt = 1)) .layout 0x1E] ++
     c.sizeRegisters.map (fun r => require (decide (0 < r.2.toInt)) .size r.1) ++
     [require (decide (0 ≤ c.padX.toInt)) .pad 0x1C,
      require (decide (0 ≤ c.padY.toInt)) .pad 0x1D])

/-- The sixteen quantities of `CheckCapacity()` with their numbers k (40_planner.md R173). -/
def capacityQuantities (p : Config.Params) (c : Cfg) : List (Nat × Int) :=
  [(1, dilatedExtent c.kW.toInt c.dilX.toInt),
   (2, dilatedExtent c.kH.toInt c.dilY.toInt),
   (3, c.axes.spanC),
   (4, c.axes.spanA),
   (5, c.axes.pC + c.axes.inC),
   (6, c.entryBytes),
   (7, c.ringCapacity p),
   (8, c.ringBytes p),
   (9, c.stagingBytes p),
   (10, c.accBytes p),
   (11, c.scratchTotal p),
   (12, c.outChannels),
   (13, c.inputBytes),
   (14, c.kernelBytes),
   (15, c.outputBytes),
   (16, c.outChannels * 8)]

/-- `CheckCapacity()` (40_planner.md R173). -/
def checkCapacity (p : Config.Params) (c : Cfg) : Option CmdError :=
  firstFailure ((capacityQuantities p c).map
    (fun k => require (decide (k.2 ≤ Config.countMax)) .capacity k.1))

/-- GETSIZE (40_planner.md R171): pure but for the four result registers and ERR. -/
def execGetsize (s : State) : Host.Outcome State Fault Refusal :=
  match firstFailure [checkShape s.cfg, checkCapacity s.params s.cfg] with
  | some e => .next (s.raiseErr e)
  | none => .next (s.finish (s.cfg.scratchTotal s.params))

end Sys2Proof.Machine
end

