-- ==== Sys2Proof/Machine/CallControl.lean ====
section
/-! DEFINITION. Call control: NOP, BEGIN, END and the argument checks (46_conv_sequencer.md R350 to R354). -/

namespace Sys2Proof.Machine

/-- NOP (46_conv_sequencer.md R350). -/
def execNop (s : State) : Host.Outcome State Fault Refusal := .next (s.finish 0)

/-- The pointer registers a call uses, with their numbers and required alignments
(46_conv_sequencer.md R352 steps A1 to A3, 20_memory.md R104). -/
def Cfg.pointerRegisters (c : Cfg) : List (Nat × Word × Nat) :=
  [(0x08, c.inPtr, c.precision.tIn.size), (0x09, c.kerPtr, c.precision.tK.size),
   (0x0A, c.biasPtr, c.precision.tB.size), (0x0B, c.outPtr, c.precision.tOut.size),
   (0x0C, c.scratchPtr, 8)] ++
  (if c.precision.perChannel then [(0x0D, c.multPtr, 4), (0x0E, c.shiftPtr, 4)] else [])

/-- A register inside a closed range, else the cause with the register's number. -/
def requireRange (w : Word) (lo hi : Int) (cause : Cause) (no : Nat) : Option CmdError :=
  require (decide (lo ≤ w.toInt) && decide (w.toInt ≤ hi)) cause no

/-- Steps A4 and A5: the shift registers the precision uses (46_conv_sequencer.md R352). -/
def shiftChecks (c : Cfg) : List (Option CmdError) :=
  match c.precision with
  | .i8 => [requireRange c.accShift 0 31 .shift 0x25, requireRange c.biasShift 0 31 .shift 0x26]
  | .i16 => [requireRange c.accShift 0 31 .shift 0x25, requireRange c.biasShift 0 31 .shift 0x26]
  | .asym8 => [requireRange c.outShift (-31) 31 .shift 0x24]
  | .f32 => []
  | .pc8 => []
  | .s8s16 => []

/-- Steps A6 and A7: the zero-point registers the precision uses (46_conv_sequencer.md R352, 10_state.md R45). -/
def zeroPointChecks (c : Cfg) : List (Option CmdError) :=
  match c.precision with
  | .asym8 =>
    [requireRange c.inZb (-127) 128 .zeroPoint 0x20, requireRange c.kerZb (-127) 128 .zeroPoint 0x21,
     requireRange c.outZp (-128) 127 .zeroPoint 0x22]
  | .pc8 =>
    [requireRange c.inZb (-127) 128 .zeroPoint 0x20, requireRange c.outZp (-128) 127 .zeroPoint 0x22]
  | .f32 => []
  | .i8 => []
  | .i16 => []
  | .s8s16 => []

/-- The precisions that clamp to [OUT_MIN, OUT_MAX] (10_state.md R48). -/
def Prec.clampsToRegisters (p : Prec) : Bool := p == .asym8 || p == .pc8 || p == .s8s16

/-- Step A8: the clamp registers (46_conv_sequencer.md R352, 10_state.md R48). -/
def clampChecks (c : Cfg) : List (Option CmdError) :=
  if c.precision.clampsToRegisters then
    [requireRange c.outMin c.precision.tOut.lo c.precision.tOut.hi .clampRange 0x27,
     requireRange c.outMax c.precision.tOut.lo c.precision.tOut.hi .clampRange 0x28,
     require (decide (c.outMin.toInt ≤ c.outMax.toInt)) .clampRange 0x2728]
  else []

/-- `CheckArgs()`, steps A1 to A8, in order (46_conv_sequencer.md R352). -/
def checkArgs (c : Cfg) : Option CmdError :=
  firstFailure
    (c.pointerRegisters.map (fun r => require (decide (r.2.1.toNat ≠ 0)) .nullPtr r.1) ++
     c.pointerRegisters.map (fun r => require (decide (r.2.1.toNat % r.2.2 = 0)) .misaligned r.1) ++
     shiftChecks c ++ zeroPointChecks c ++ clampChecks c)

/-- `CheckArgs()`, step A9: the elements of the shift array in ascending order (46_conv_sequencer.md R352). -/
def checkShiftArray (c : Cfg) (m : Memory) : Option CmdError :=
  if c.precision.perChannel then
    firstFailure ((List.range c.outChannels.toNat).map (fun oc : Nat =>
      require (decide (-31 ≤ shiftElem c m oc) && decide (shiftElem c m oc ≤ 31)) .shift
        (0x0E + 256 * (oc % 2 ^ 24))))
  else none

/-- What BEGIN and CONV find out about the configuration before they do anything. -/
inductive Verdict where
  /-- Every check passes and the regions meet the host's duties. -/
  | accept
  /-- A check fails: the command ends with this error. -/
  | reject (e : CmdError)
  /-- Every check made so far passes, but a duty the engine relies on is breached: the model refuses
  (70_reset_and_hazards.md R440, H6). -/
  | breach (r : Refusal)
deriving DecidableEq, Repr

/-- The shift array may be read: it is not used, or it is placed (20_memory.md R103). -/
def shiftArrayPlaced (c : Cfg) : Bool := !c.precision.perChannel || c.shiftRegion.placed

/-- The checks of BEGIN and CONV in the order of 60_exceptions.md R394, then the host's duties on the
regions, which the engine does not check (20_memory.md R103, R116; log 5). -/
def callVerdict (p : Config.Params) (c : Cfg) (m : Memory) : Verdict :=
  match firstFailure [checkShape c, checkCapacity p c, checkArgs c] with
  | some e => .reject e
  | none =>
    if !shiftArrayPlaced c then .breach .regionMisplaced
    else match checkShiftArray c m with
      | some e => .reject e
      | none =>
        if !c.regionsPlaced p then .breach .regionMisplaced
        else if !c.regionsDisjoint p then .breach .regionsOverlap
        else .accept

/-- The registers BEGIN writes once its checks pass (46_conv_sequencer.md R351, 40_planner.md R175). -/
def openCall (s : State) : State :=
  { s with
    book :=
      { cbCap := BitVec.ofInt 32 (s.cfg.ringCapacity s.params)
        cbEntryBytes := BitVec.ofInt 32 s.cfg.entryBytes
        cbLine := BitVec.ofInt 32 s.cfg.axes.line
        layCb := BitVec.ofInt 32 (Cfg.offCb s.params)
        layKs := BitVec.ofInt 32 (s.cfg.offKs s.params)
        layAcc := BitVec.ofInt 32 (s.cfg.offAcc s.params)
        layTotal := BitVec.ofInt 32 (s.cfg.scratchTotal s.params)
        layKcpad := BitVec.ofInt 32 (s.cfg.kernelLine s.params)
        cbCursor := 0, cbValid := 0, cbFed := 0, feedAdd := 0, feedReal := 0
        accJ0 := 0, accN := 0
        decG := 0, decCount := 0, decRstride := 0
        subNout := 0, subLead := 0, subNent := 0 }
    status := { s.status with callOpen := true } }

/-- BEGIN and CONV close an open call, run every check, and go on only if all pass
(46_conv_sequencer.md R351, R356). -/
def startCall (go : State → State) (s : State) : Host.Outcome State Fault Refusal :=
  match callVerdict s.params s.cfg s.mem with
  | .reject e => .next (s.close.raiseErr e)
  | .breach r => .refused r
  | .accept => .next ((go (openCall s.close)).finish 0)

/-- BEGIN (46_conv_sequencer.md R351). -/
def execBegin (s : State) : Host.Outcome State Fault Refusal := startCall id s

/-- The scratch region after its header is released to the host: its bytes are unspecified
(93_implementation_defined.md U7, 46_conv_sequencer.md R354, R361; log 3). -/
def releaseScratch (s : State) : State :=
  s.releaseBytes (ptrPlus s.cfg.scratchPtr s.book.layCb.toInt)
    (s.book.layTotal.toInt - s.book.layCb.toInt).toNat

/-- END (46_conv_sequencer.md R354). -/
def execEnd (s : State) : Host.Outcome State Fault Refusal :=
  runCommand (needOpen s.status) (fun s => releaseScratch s.close) s

end Sys2Proof.Machine
end

