-- ==== Sys2Proof/Machine/Decomposer.lean ====
section
/-! DEFINITION. The Dilated-Stride Decomposer: DECOMP (45_decomposer.md). -/

namespace Sys2Proof.Machine

/-- The effect of DECOMP (45_decomposer.md R330, R331). -/
def decompose (s : State) : State :=
  { s with
    book := { s.book with
      decG := BitVec.ofInt 32 s.cfg.axes.commonDivisor
      decCount := BitVec.ofInt 32 s.cfg.axes.classCount
      decRstride := BitVec.ofInt 32 s.cfg.axes.reducedStride }
    status := { s.status with decValid := true } }

/-- DECOMP (45_decomposer.md R330). -/
def execDecomp (s : State) : Host.Outcome State Fault Refusal :=
  runCommand (needOpen s.status) decompose s

end Sys2Proof.Machine
end

