-- ==== Sys2Proof/Machine/Float32.lean ====
section
/-! DEFINITION. Binary32 multiply and add on bit patterns: IEEE 754, round to nearest, ties to even,
subnormals kept, one canonical NaN, no flags (44_requantization.md R300; 92_eei_decisions.md D10). -/

namespace Sys2Proof.Machine.F32

/-- The canonical quiet NaN (R300). -/
def canonicalNaN : Word := 0x7FC00000

/-- The sign bit, bit 31. -/
def neg (b : Word) : Bool := b.getLsbD 31

/-- The biased exponent field, bits [30:23]. -/
def expField (b : Word) : Nat := (b.extractLsb' 23 8).toNat

/-- The fraction field, bits [22:0]. -/
def fracField (b : Word) : Nat := (b.extractLsb' 0 23).toNat

/-- A NaN, quiet or signalling: both are treated alike (R300). -/
def isNaN (b : Word) : Bool := expField b == 255 && fracField b != 0

/-- An infinity. -/
def isInf (b : Word) : Bool := expField b == 255 && fracField b == 0

/-- The integer significand of a finite number. -/
def mant (b : Word) : Nat := if expField b = 0 then fracField b else fracField b + 2 ^ 23

/-- The exponent of a finite number, offset so that its value is (±) mant × 2^(scale − 150); a subnormal
has the exponent of the smallest normal. -/
def scale (b : Word) : Nat := max (expField b) 1

/-- A sign and a magnitude pattern below 2^31 put together. -/
def pack (negative : Bool) (mag : Nat) : Word :=
  BitVec.ofNat 32 (if negative then 2 ^ 31 + mag else mag)

/-- The pattern of an infinity. -/
def infinity (negative : Bool) : Word := pack negative 0x7F800000

/-- m ÷ 2^k rounded to the nearest integer, ties to even. -/
def divRne (m k : Nat) : Nat :=
  let f := m / 2 ^ k
  let r := 2 * (m % 2 ^ k)
  if r < 2 ^ k then f else if 2 ^ k < r then f + 1 else f + f % 2

/-- The exponent of the unit in the last place of the result of rounding m × 2^e, m > 0: 24 significant
bits, but never below the subnormal spacing 2^(−149). -/
def ulpExp (m : Nat) (e : Int) : Int := max (-149) ((Nat.log2 m : Int) + e - 23)

/-- The exact value (±) m × 2^e rounded once to binary32 (R300). Adding the significand to the shifted
exponent carries into the exponent field when rounding reaches the next power of two; what reaches
the infinity pattern is an overflow. -/
def roundPack (negative : Bool) (m : Nat) (e : Int) : Word :=
  if m = 0 then pack negative 0
  else
    let q := ulpExp m e
    let sig := if q ≤ e then m * 2 ^ (e - q).toNat else divRne m (q - e).toNat
    pack negative (min 0x7F800000 ((q + 149).toNat * 2 ^ 23 + sig))

/-- `fmul32(a, b)` (R300). -/
def mul (a b : Word) : Word :=
  let negative := neg a != neg b
  if isNaN a || isNaN b then canonicalNaN
  else if isInf a || isInf b then
    (if mant a != 0 && mant b != 0 then infinity negative else canonicalNaN)
  else roundPack negative (mant a * mant b) ((scale a : Int) + scale b - 300)

/-- The signed significand of a finite number brought to the exponent `low`. -/
def aligned (b : Word) (low : Nat) : Int :=
  let m : Int := (mant b * 2 ^ (scale b - low) : Nat)
  if neg b then -m else m

/-- `fadd32(a, b)` (R300): an exact zero sum is −0 only when both operands are negative. -/
def add (a b : Word) : Word :=
  if isNaN a || isNaN b then canonicalNaN
  else if isInf a && isInf b then (if neg a == neg b then infinity (neg a) else canonicalNaN)
  else if isInf a then infinity (neg a)
  else if isInf b then infinity (neg b)
  else
    let low := min (scale a) (scale b)
    let sum := aligned a low + aligned b low
    if sum = 0 then pack (neg a && neg b) 0
    else roundPack (decide (sum < 0)) sum.natAbs ((low : Int) - 150)

end Sys2Proof.Machine.F32
end

