-- ==== Sys2Proof/Machine/CircularBuffer.lean ====
section
/-! DEFINITION. The Circular Buffer: CB_INIT and CB_FEED (41_circular_buffer.md). -/

namespace Sys2Proof.Machine

/-- `0 ≤ x[CTX_IC] < x[IN_C]`, else E_CTX 0x30. -/
def needChannel (s : State) : Option CmdError :=
  require (decide (0 ≤ s.ctx.ic.toInt) && decide (s.ctx.ic.toInt < s.cfg.inC.toInt)) .context 0x30

/-- The preconditions of CB_INIT, in order (41_circular_buffer.md R192). -/
def cbInitPre (s : State) : Option CmdError :=
  firstFailure
    [needOpen s.status, needDecomposition s.status, needChannel s,
     require (decide (0 ≤ s.ctx.res.toInt) && decide (s.ctx.res.toInt < s.book.decCount.toInt))
       .context 0x32]

/-- The stores of CB_INIT: every element of every slot, alignment fill included, takes `PV`
(41_circular_buffer.md R192). -/
def cbInitStores (s : State) : List Store :=
  (List.range s.book.cbCap.toInt.toNat).flatMap fun k : Nat =>
    (List.range (s.book.cbEntryBytes.toInt / s.cfg.precision.esIn).toNat).map fun u : Nat =>
      elemStore (s.slotByte k (u * s.cfg.precision.esIn)) s.cfg.precision.tIn s.cfg.padIn

/-- The effect of CB_INIT (41_circular_buffer.md R192). -/
def initRing (s : State) : State :=
  { s.store (cbInitStores s) with
    book := { s.book with
      cbCursor := 0
      cbValid := 0
      cbFed := 0
      feedAdd := 0
      feedReal := 0
      subNout := BitVec.ofInt 32 (s.cfg.axes.subOutputs s.ctx.res.toInt)
      subLead := BitVec.ofInt 32 (s.cfg.axes.subLead s.ctx.res.toInt)
      subNent := BitVec.ofInt 32 (s.cfg.axes.subEntries s.ctx.res.toInt) }
    status := { s.status with cbState := .primed, accValid := false } }

/-- CB_INIT (41_circular_buffer.md R192). -/
def execCbInit (s : State) : Host.Outcome State Fault Refusal :=
  runCommand (cbInitPre s) initRing s

/-- `1 ≤ n ≤ R_ITER`, else E_CTX 0x01 (30_encoding.md R145). -/
def needTileSize (n : Nat) (s : State) : Option CmdError :=
  require (decide (1 ≤ n) && decide (n ≤ s.params.rIter)) .context 0x01

/-- `0 ≤ x[CTX_J0]` and `x[CTX_J0] + n ≤ x[SUB_NOUT]`, else E_CTX 0x33. -/
def needTilePlace (n : Nat) (s : State) : Option CmdError :=
  require (decide (0 ≤ s.ctx.j0.toInt) && decide (s.ctx.j0.toInt + n ≤ s.book.subNout.toInt))
    .context 0x33

/-- The preconditions of CB_FEED, in order (41_circular_buffer.md R194). -/
def cbFeedPre (n : Nat) (s : State) : Option CmdError :=
  firstFailure [needOpen s.status, needRing s.status, needTileSize n s, needTilePlace n s]

/-- The first entry number the tile needs, `start` (41_circular_buffer.md R194, 43_compute_loop.md R251). -/
def State.tileStart (s : State) : Int := s.ctx.j0.toInt * s.book.decRstride.toInt

/-- `need`, the number of entries a tile of n outputs needs (41_circular_buffer.md R194). -/
def State.tileNeed (s : State) (n : Nat) : Int :=
  s.cfg.axes.kA + ((n : Int) - 1) * s.book.decRstride.toInt

/-- `to_add` (41_circular_buffer.md R194). -/
def State.feedCount (s : State) (n : Nat) : Int :=
  max 0 (s.tileStart + s.tileNeed n - s.book.cbFed.toInt)

/-- The oldest resident entry number, `CB_FED − CB_VALID` (10_state.md R52). -/
def State.oldestEntry (s : State) : Int := s.book.cbFed.toInt - s.book.cbValid.toInt

/-- `SAMPLE(ic, q, u)` (41_circular_buffer.md R195). -/
def ringSample (c : Cfg) (m : Memory) (ic q u : Int) : Int :=
  if 0 ≤ q ∧ q < c.axes.inA ∧ 0 ≤ u - c.axes.pC ∧ u - c.axes.pC < c.axes.inC then
    inputElem c m ic q (u - c.axes.pC)
  else c.padIn

/-- The ring-axis input coordinate of the i-th appended entry (41_circular_buffer.md R194). -/
def State.feedCoord (s : State) (i : Int) : Int :=
  s.cfg.axes.entryCoord s.ctx.res.toInt (s.book.cbFed.toInt + i)

/-- The slot of the i-th appended entry: the cursor advanced i times modulo the capacity. -/
def State.feedSlot (s : State) (i : Int) : Int :=
  (s.book.cbCursor.toInt + i) % s.book.cbCap.toInt

/-- The stores of CB_FEED, entry by entry and sample by sample (41_circular_buffer.md R194, R195). -/
def cbFeedStores (n : Nat) (s : State) : List Store :=
  (List.range (s.feedCount n).toNat).flatMap fun i : Nat =>
    (List.range s.book.cbLine.toInt.toNat).map fun u : Nat =>
      elemStore (s.slotByte (s.feedSlot i) (u * s.cfg.precision.esIn)) s.cfg.precision.tIn
        (ringSample s.cfg s.mem s.ctx.ic.toInt (s.feedCoord i) u)

/-- `real`: how many of the appended entries lie inside the tensor on the ring axis (41_circular_buffer.md R194). -/
def State.feedReal (s : State) (n : Nat) : Nat :=
  (List.range (s.feedCount n).toNat).countP fun i : Nat =>
    decide (0 ≤ s.feedCoord i) && decide (s.feedCoord i < s.cfg.axes.inA)

/-- `new_start`, the oldest entry kept (41_circular_buffer.md R194). -/
def State.feedKeepFrom (s : State) (n : Nat) : Int :=
  max (max s.tileStart s.oldestEntry)
    (s.book.cbFed.toInt + s.feedCount n - s.book.cbCap.toInt)

/-- The effect of CB_FEED (41_circular_buffer.md R194). -/
def feedRing (n : Nat) (s : State) : State :=
  { s.store (cbFeedStores n s) with
    book := { s.book with
      cbCursor := BitVec.ofInt 32 (s.feedSlot (s.feedCount n))
      cbFed := BitVec.ofInt 32 (s.book.cbFed.toInt + s.feedCount n)
      cbValid := BitVec.ofInt 32 (s.book.cbFed.toInt + s.feedCount n - s.feedKeepFrom n)
      feedAdd := BitVec.ofInt 32 (s.feedCount n)
      feedReal := BitVec.ofNat 32 (s.feedReal n) }
    status := { s.status with cbState := .streaming, accValid := false } }

/-- CB_FEED n (41_circular_buffer.md R194). -/
def execCbFeed (n : Nat) (s : State) : Host.Outcome State Fault Refusal :=
  runCommand (cbFeedPre n s) (feedRing n) s

end Sys2Proof.Machine
end

