-- ==== Sys2Proof/Machine/KernelStager.lean ====
section
/-! DEFINITION. The Kernel Stager: KS_CLEAR and KSTAGE (42_kernel_stager.md). -/

namespace Sys2Proof.Machine

/-- The bytes of the staged lines, `K_a × KCPAD × es_k` (42_kernel_stager.md R231). -/
def State.stagedLineBytes (s : State) : Int :=
  s.cfg.axes.kA * s.book.layKcpad.toInt * s.cfg.precision.esK

/-- The stores of KS_CLEAR: `PK` at every position, then 0 in the alignment fill up to the accumulator
region, which starts `KS_BYTES` after the staging region (42_kernel_stager.md R231, 10_state.md R72). -/
def ksClearStores (s : State) : List Store :=
  ((List.range s.cfg.axes.kA.toNat).flatMap fun ta : Nat =>
    (List.range s.book.layKcpad.toInt.toNat).map fun p : Nat =>
      elemStore (s.stagedAddr ta p) s.cfg.precision.tK s.cfg.padKer) ++
  (List.range (s.book.layAcc.toInt - s.book.layKs.toInt - s.stagedLineBytes).toNat).map fun b : Nat =>
    elemStore (ptrPlus s.cfg.scratchPtr (s.book.layKs.toInt + s.stagedLineBytes + b)) .s8 0

/-- The effect of KS_CLEAR (42_kernel_stager.md R231). -/
def clearStaging (s : State) : State :=
  { s.store (ksClearStores s) with
    status := { s.status with kpadValid := true, ksValid := false, accValid := false } }

/-- KS_CLEAR (42_kernel_stager.md R231). -/
def execKsClear (s : State) : Host.Outcome State Fault Refusal :=
  runCommand (needOpen s.status) clearStaging s

/-- The preconditions of KSTAGE, in order (42_kernel_stager.md R232). -/
def kstagePre (s : State) : Option CmdError :=
  firstFailure
    [needOpen s.status, needKernelPadding s.status, needChannel s,
     require (decide (0 ≤ s.ctx.m.toInt) && decide (s.ctx.m.toInt < s.cfg.chMult.toInt)) .context 0x31]

/-- The stores of KSTAGE: tap (ta, tc) at position (ta, tc × D_c) (42_kernel_stager.md R232). -/
def kstageStores (s : State) : List Store :=
  (List.range s.cfg.axes.kA.toNat).flatMap fun ta : Nat =>
    (List.range s.cfg.axes.kC.toNat).map fun tc : Nat =>
      elemStore (s.stagedAddr ta (tc * s.cfg.axes.dC)) s.cfg.precision.tK
        (kernelElem s.cfg s.mem s.contextChannel ta tc)

/-- The effect of KSTAGE (42_kernel_stager.md R232). -/
def stageKernel (s : State) : State :=
  { s.store (kstageStores s) with
    status := { s.status with ksValid := true, accValid := false } }

/-- KSTAGE (42_kernel_stager.md R232). -/
def execKstage (s : State) : Host.Outcome State Fault Refusal :=
  runCommand (kstagePre s) stageKernel s

end Sys2Proof.Machine
end

