-- ==== Sys2Proof/Machine/ComputeLoop.lean ====
section
/-! DEFINITION. The Convolution Compute Loop: MAC_TILE (43_compute_loop.md). An accumulator is an
integer: the s64 value of an integer precision, the bit pattern of binary32. -/

namespace Sys2Proof.Machine

/-- A binary operation on patterns as one on accumulators. -/
def onPatterns (op : Word → Word → Word) (a b : Int) : Int :=
  ((op (BitVec.ofInt 32 a) (BitVec.ofInt 32 b)).toNat : Int)

/-- `MACSTEP(acc, xin, kv)` (43_compute_loop.md R253): `ZI`, `ZK` are 0 where the precision adds none. -/
def macStep (c : Cfg) (acc xin kv : Int) : Int :=
  match c.precision with
  | .f32 => onPatterns F32.add acc (onPatterns F32.mul xin kv)
  | .i8 => acc + xin * kv
  | .i16 => acc + xin * kv
  | .s8s16 => acc + xin * kv
  | .asym8 => acc + (xin + c.inZb.toInt) * (kv + c.kerZb.toInt)
  | .pc8 => acc + (xin + c.inZb.toInt) * kv

/-- The exact sum of the bias step, before any wrap (43_compute_loop.md R256). -/
def biasedSum (c : Cfg) (acc b : Int) : Int :=
  match c.precision with
  | .f32 => onPatterns F32.add acc b
  | .i8 => acc + b * 2 ^ c.biasShift.toInt.toNat
  | .i16 => acc + b * 2 ^ c.biasShift.toInt.toNat
  | .asym8 => acc + b
  | .pc8 => acc + b
  | .s8s16 => acc + b

/-- `ADDBIAS(acc, b)` (43_compute_loop.md R256). -/
def addBias (c : Cfg) (acc b : Int) : Int :=
  match c.precision with
  | .s8s16 => sext64 (biasedSum c acc b)
  | .f32 => biasedSum c acc b
  | .i8 => biasedSum c acc b
  | .i16 => biasedSum c acc b
  | .asym8 => biasedSum c acc b
  | .pc8 => biasedSum c acc b

/-- The bias add leaves the 64-bit range, so that `ACC_OVF` is set (43_compute_loop.md R254). -/
def biasOverflows (c : Cfg) (acc b : Int) : Bool :=
  decide (c.precision = .s8s16) && outside64 (biasedSum c acc b)

/-- The taps (ta, tc) in the order of 43_compute_loop.md R253: kernel row outer, kernel column inner. -/
def tapOrder (c : Cfg) : List (Int × Int) :=
  if c.channelFirst then
    (List.range c.kH.toInt.toNat).flatMap fun ky : Nat =>
      (List.range c.kW.toInt.toNat).map fun kx : Nat => ((ky : Int), (kx : Int))
  else
    (List.range c.kH.toInt.toNat).flatMap fun ky : Nat =>
      (List.range c.kW.toInt.toNat).map fun kx : Nat => ((kx : Int), (ky : Int))

/-- The ring sample of entry number `nn` at line position `u`, wrapped on its own
(43_compute_loop.md R250, R252). -/
def State.windowSample (s : State) (nn u : Int) : Int :=
  s.mem.load (s.slotByte (nn % s.book.cbCap.toInt) (u * s.cfg.precision.esIn)) s.cfg.precision.tIn

/-- The staged tap (ta, tc): only true tap positions are read (43_compute_loop.md R250, R255). -/
def State.stagedTap (s : State) (ta tc : Int) : Int :=
  s.mem.load (s.stagedAddr ta (tc * s.cfg.axes.dC)) s.cfg.precision.tK

/-- The accumulator of the t-th ring-axis output and cross-axis output w, before the bias
(43_compute_loop.md R250, R253; ACC0 is 0, the pattern of +0.0). -/
def State.tapSum (s : State) (t w : Int) : Int :=
  (tapOrder s.cfg).foldl
    (fun acc tap =>
      macStep s.cfg acc
        (s.windowSample ((s.ctx.j0.toInt + t) * s.book.decRstride.toInt + tap.1)
          (w * s.cfg.axes.sC + tap.2 * s.cfg.axes.dC))
        (s.stagedTap tap.1 tap.2))
    0

/-- The bias element MAC_TILE reads, `BIAS(oc)` (43_compute_loop.md R250). -/
def State.tileBias (s : State) : Int := biasElem s.cfg s.mem s.contextChannel

/-- `StAcc(acc_addr(e), acc)`: 64 bits, or the pattern in bytes 0 to 3 and zero in bytes 4 to 7
(43_compute_loop.md R257). A pattern is below 2^32, so one 8-byte store writes both halves. -/
def State.accStore (s : State) (e acc : Int) : Store :=
  { addr := s.accAddr e, len := 8, val := acc }

/-- The (t, w) pairs of a tile of n outputs, in order (43_compute_loop.md R250). -/
def State.tileIndices (s : State) (n : Nat) : List (Nat × Nat) :=
  (List.range n).flatMap fun t : Nat =>
    (List.range s.cfg.axes.outC.toNat).map fun w : Nat => (t, w)

/-- The stores of MAC_TILE: entry t × O_c + w takes the biased accumulator (43_compute_loop.md R250). -/
def macTileStores (n : Nat) (s : State) : List Store :=
  (s.tileIndices n).map fun i =>
    s.accStore (i.1 * s.cfg.axes.outC + i.2) (addBias s.cfg (s.tapSum i.1 i.2) s.tileBias)

/-- Some bias add of the tile overflows (43_compute_loop.md R254). -/
def State.tileOverflows (s : State) (n : Nat) : Bool :=
  (s.tileIndices n).any fun i => biasOverflows s.cfg (s.tapSum i.1 i.2) s.tileBias

/-- The preconditions of MAC_TILE, in order, but for the window test (43_compute_loop.md R250). -/
def macTilePre (n : Nat) (s : State) : Option CmdError :=
  firstFailure
    [needOpen s.status, needRing s.status, needStagedKernel s.status, needTileSize n s,
     needTilePlace n s]

/-- The window test of 43_compute_loop.md R251: 1 if the oldest entry the tile needs is gone, 2 if the
newest is not fed yet. -/
def State.windowMisses (s : State) (n : Nat) : Option Nat :=
  if s.tileStart < s.oldestEntry then some 1
  else if s.book.cbFed.toInt < s.tileStart + s.tileNeed n then some 2
  else none

/-- The early return of MAC_TILE (43_compute_loop.md R251). -/
def underrunReturn (k : Nat) (s : State) : State :=
  State.raiseErr { cause := .underrun, info := k }
    { s with status := { s.status with accValid := false, underrun := true } }

/-- The effect of MAC_TILE (43_compute_loop.md R250). -/
def computeTile (n : Nat) (s : State) : State :=
  { s.store (macTileStores n s) with
    book := { s.book with accJ0 := s.ctx.j0, accN := BitVec.ofNat 32 n }
    status := { s.status with
      accValid := true
      accOvf := s.status.accOvf || s.tileOverflows n } }

/-- MAC_TILE n (43_compute_loop.md R250, R251). -/
def execMacTile (n : Nat) (s : State) : Host.Outcome State Fault Refusal :=
  match macTilePre n s with
  | some e => .next (s.raiseErr e)
  | none =>
    match s.windowMisses n with
    | some k => .next (underrunReturn k s)
    | none => .next ((computeTile n s).finish 0)

end Sys2Proof.Machine
end

