-- ==== Sys2Proof/Machine/Requant.lean ====
section
/-! DEFINITION. The Requantization Unit: REQ_WRITE (44_requantization.md). -/

namespace Sys2Proof.Machine

/-- `FINISH(acc, oc)` with the multiplier and shift of output channel oc (44_requantization.md R282 to R287). -/
def finishWith (c : Cfg) (acc mult shift : Int) : Int :=
  match c.precision with
  | .f32 => acc
  | .i8 => clamp (rha acc c.accShift.toInt) (-128) 127
  | .i16 => clamp (rha acc c.accShift.toInt) (-32768) 32767
  | .asym8 =>
    clamp (rq31 acc c.outMult.toInt c.outShift.toInt + c.outZp.toInt) c.outMin.toInt c.outMax.toInt
  | .pc8 => clamp (rq31 acc mult shift + c.outZp.toInt) c.outMin.toInt c.outMax.toInt
  | .s8s16 => clamp (rha (acc * reduce15 mult) (15 - shift)) c.outMin.toInt c.outMax.toInt

/-- `FINISH(acc, oc)`: `MULT(oc)` and `SHIFT(oc)` are read from the arrays (44_requantization.md R286, R287);
the precisions that do not use them do not depend on them. -/
def finishAcc (c : Cfg) (m : Memory) (oc acc : Int) : Int :=
  finishWith c acc (multElem c m oc) (shiftElem c m oc)

/-- `LdAcc(acc_addr(e))` (43_compute_loop.md R257). -/
def State.loadAcc (s : State) (e : Int) : Int :=
  match s.cfg.precision with
  | .f32 => s.mem.load (s.accAddr e) .f32
  | .i8 => s.mem.load (s.accAddr e) .s64
  | .i16 => s.mem.load (s.accAddr e) .s64
  | .asym8 => s.mem.load (s.accAddr e) .s64
  | .pc8 => s.mem.load (s.accAddr e) .s64
  | .s8s16 => s.mem.load (s.accAddr e) .s64

/-- The preconditions of REQ_WRITE, in order (44_requantization.md R280). -/
def reqWritePre (s : State) : Option CmdError :=
  firstFailure [needOpen s.status, needAccumulators s.status]

/-- The ring-axis output coordinate of the tile's t-th output, `(j0 + t) × COUNT + r`
(44_requantization.md R280, 45_decomposer.md R335). -/
def State.outputCoord (s : State) (t : Int) : Int :=
  (s.book.accJ0.toInt + t) * s.book.decCount.toInt + s.ctx.res.toInt

/-- The stores of REQ_WRITE (44_requantization.md R280). -/
def reqWriteStores (s : State) : List Store :=
  (s.tileIndices s.book.accN.toInt.toNat).map fun i =>
    elemStore (s.cfg.outputAddrAc s.contextChannel (s.outputCoord i.1) i.2) s.cfg.precision.tOut
      (finishAcc s.cfg s.mem s.contextChannel (s.loadAcc (i.1 * s.cfg.axes.outC + i.2)))

/-- The effect of REQ_WRITE (44_requantization.md R280). -/
def writeTile (s : State) : State :=
  { s.store (reqWriteStores s) with status := { s.status with accValid := false } }

/-- REQ_WRITE (44_requantization.md R280). -/
def execReqWrite (s : State) : Host.Outcome State Fault Refusal :=
  runCommand (reqWritePre s) writeTile s

end Sys2Proof.Machine
end

