-- ==== Sys2Proof/Machine/Conv.lean ====
section
/-! DEFINITION. The CONV sequencer (46_conv_sequencer.md R356). -/

namespace Sys2Proof.Machine

/-- One tile of CONV: feed, compute, requantize n outputs from j0 (46_conv_sequencer.md R356). -/
def convTile (j0 n : Nat) (s : State) : State :=
  writeTile (computeTile n (feedRing n (s.writeJ0 (BitVec.ofNat 32 j0))))

/-- The tile starts of a sub-convolution of `nout` outputs: 0, R_ITER, 2 R_ITER, …
(46_conv_sequencer.md R356). -/
def tileStarts (rIter nout : Nat) : List Nat :=
  (List.range ((nout + rIter - 1) / rIter)).map (fun i => i * rIter)

/-- All tiles of the staged filter, each of R_ITER outputs, the last one shorter. -/
def convTiles (s : State) : State :=
  let nout := s.book.subNout.toInt.toNat
  (tileStarts s.params.rIter nout).foldl
    (fun s j0 => convTile j0 (min s.params.rIter (nout - j0)) s) s

/-- The context of one (class, input channel, multiplier) triple (46_conv_sequencer.md R356). -/
def convContext (r ic m : Nat) (s : State) : State :=
  (((s.writeIc (BitVec.ofNat 32 ic)).writeM (BitVec.ofNat 32 m)).writeRes
    (BitVec.ofNat 32 r)).writeJ0 0

/-- One (class, input channel, multiplier) triple of CONV (46_conv_sequencer.md R356, 42_kernel_stager.md R235). -/
def convFilter (r ic m : Nat) (s : State) : State :=
  let s1 := initRing (convContext r ic m s)
  if s1.book.subNout = 0 then s1 else convTiles (stageKernel s1)

/-- The loop nest of CONV: residue class, then input channel, then multiplier (46_conv_sequencer.md R356). -/
def convLoops (s : State) : State :=
  (List.range s.book.decCount.toInt.toNat).foldl (fun s r =>
    (List.range s.cfg.inC.toInt.toNat).foldl (fun s ic =>
      (List.range s.cfg.chMult.toInt.toNat).foldl (fun s m => convFilter r ic m s) s) s) s

/-- What CONV does once BEGIN's part has opened the call; at its end the call is closed and the scratch
region released (46_conv_sequencer.md R356, R361). -/
def convolve (s : State) : State :=
  releaseScratch (convLoops (clearStaging (decompose s))).close

/-- CONV (46_conv_sequencer.md R356). -/
def execConv (s : State) : Host.Outcome State Fault Refusal := startCall convolve s

end Sys2Proof.Machine
end

