-- ==== Sys2Proof/Machine/Dispatch.lean ====
section
/-! DEFINITION. One arm per command, each one direct call of its meaning. -/

namespace Sys2Proof.Machine

def exec (i : Instr) (s : State) : Host.Outcome State Fault Refusal :=
  match i with
  | .nop => Sys2Proof.Machine.execNop s
  | .getsize => Sys2Proof.Machine.execGetsize s
  | .callBegin => Sys2Proof.Machine.execBegin s
  | .callEnd => Sys2Proof.Machine.execEnd s
  | .conv => Sys2Proof.Machine.execConv s
  | .decomp => Sys2Proof.Machine.execDecomp s
  | .cbInit => Sys2Proof.Machine.execCbInit s
  | .cbFeed n => Sys2Proof.Machine.execCbFeed n s
  | .ksClear => Sys2Proof.Machine.execKsClear s
  | .kstage => Sys2Proof.Machine.execKstage s
  | .macTile n => Sys2Proof.Machine.execMacTile n s
  | .reqWrite => Sys2Proof.Machine.execReqWrite s

end Sys2Proof.Machine
end

