-- ==== Sys2Proof/Machine/HostBus.lean ====
section
/-! DEFINITION. The host's transactions (30_encoding.md R140): register writes with the command
register, register reads, host memory accesses, reset. -/

namespace Sys2Proof.Machine

/-- A command word written to CMD: decoded and executed, or E_CMD with info w[15:0]
(10_state.md R35, 30_encoding.md R144). -/
def runCommandWord (w : Word) (s : State) : Host.Outcome State Fault Refusal :=
  match decode w with
  | .ok i => exec i s
  | .error _ => .next (s.raiseErr { cause := .command, info := w.toNat % 2 ^ 16 })

/-- `RegWrite(no, w)` (30_encoding.md R140): register 0x01 is CMD. -/
def regWrite (no : Nat) (w : Word) (s : State) : Host.Outcome State Fault Refusal :=
  if no = 0x01 then runCommandWord w s else .next (s.writeReg no w)

/-- The byte address is in a region of the open call (20_memory.md R122). -/
def State.ownedByCall (s : State) (a : Nat) : Bool :=
  s.status.callOpen && (s.cfg.regions s.params).any (fun r => r.has a)

/-- A host memory store (00_scope.md R4, 30_encoding.md R147). A byte that the open call owns is a
breach the model refuses (20_memory.md R122, log 6). -/
def hostStore (addr : Nat) (bytes : List Byte) (s : State) : Host.Outcome State Fault Refusal :=
  if Config.addressSpace < addr + bytes.length then .fault .noSuchAddress
  else if (List.range bytes.length).any (fun i => s.ownedByCall (addr + i)) then
    .refused .hostWroteOwnedRegion
  else .next { s with mem := s.mem.writeBytes addr bytes }

/-- A host memory load, always allowed (20_memory.md R122, 30_encoding.md R147). -/
def hostLoad (addr len : Nat) (s : State) : Host.Outcome State Fault Refusal :=
  if Config.addressSpace < addr + len then .fault .noSuchAddress
  else .next { s with reply := .bytes (s.mem.readBytes addr len) }

/-- Reset, between commands: every register to its reset value, memory untouched
(70_reset_and_hazards.md R430, 10_state.md R79, R80). What the host has still to send and what it has
read are the host's, not the engine's (log 11). -/
def State.hardReset (s : State) : State :=
  { State.resetWith s.params with
    mem := s.mem
    freeDraws := s.freeDraws
    hostQueue := s.hostQueue
    reply := s.reply }

/-- One host transaction. -/
def transact (t : HostTxn) (s : State) : Host.Outcome State Fault Refusal :=
  match t with
  | .regWrite no w => regWrite no w s
  | .regRead no => .next { s with reply := .word (s.readReg no) }
  | .memStore addr bytes => hostStore addr bytes s
  | .memLoad addr len => hostLoad addr len s
  | .reset => .next s.hardReset

/-- The next host transaction and the state without it. -/
def nextTransaction (s : State) : Option (HostTxn × State) :=
  match s.hostQueue with
  | [] => none
  | t :: rest => some (t, { s with hostQueue := rest })

end Sys2Proof.Machine
end

