-- ==== Sys2Proof/Machine/Step.lean ====
section
/-! DEFINITION. One step of the machine: the oldest host transaction still to come, performed to
completion (00_scope.md R4, 30_encoding.md R140). -/

namespace Sys2Proof.Machine

/-- One step. With no transaction to come the engine is idle and ready, and nothing changes
(46_conv_sequencer.md R364, 60_exceptions.md R405; log 15). -/
def step (s : State) : Host.Outcome State Fault Refusal :=
  match nextTransaction s with
  | none => .next s
  | some (t, rest) => transact t rest

/-- The state whose very next step is the host's write of the command word `w` to CMD: the engine
fetches nothing (10_state.md R31), its commands come from the host (log 1). -/
def State.withFetchWord (s : State) (nbits w : Nat) : State :=
  { s with hostQueue := .regWrite 0x01 (BitVec.ofNat 32 (w % 2 ^ nbits)) :: s.hostQueue }

end Sys2Proof.Machine
end

