-- ==== Sys2Proof/Machine/Reference.lean ====
section
/-! DEFINITION. The reference function REF: what a convolution call must compute, without ring, tiles or
decomposition (46_conv_sequencer.md R355). No command uses it; statements do. -/

namespace Sys2Proof.Machine

/-- The input sample REF reads at tensor position (y, x): the pad value outside (46_conv_sequencer.md R355). -/
def refSample (c : Cfg) (m : Memory) (ic y x : Int) : Int :=
  if 0 ≤ y ∧ y < c.inH.toInt ∧ 0 ≤ x ∧ x < c.inW.toInt then m.load (c.inputAddr ic y x) c.precision.tIn
  else c.padIn

/-- One tap (ky, kx) of REF for output (oc, oy, ox) (46_conv_sequencer.md R355). -/
def refTap (c : Cfg) (m : Memory) (oc oy ox acc ky kx : Int) : Int :=
  macStep c acc
    (refSample c m (oc / c.chMult.toInt) (oy * c.strideY.toInt + ky * c.dilY.toInt - c.padY.toInt)
      (ox * c.strideX.toInt + kx * c.dilX.toInt - c.padX.toInt))
    (m.load (c.kernelAddr oc ky kx) c.precision.tK)

/-- The sum of REF before the bias, taps in (ky outer, kx inner) order (46_conv_sequencer.md R355). -/
def refSum (c : Cfg) (m : Memory) (oc oy ox : Int) : Int :=
  (List.range c.kH.toInt.toNat).foldl (fun acc (ky : Nat) =>
    (List.range c.kW.toInt.toNat).foldl (fun acc (kx : Nat) => refTap c m oc oy ox acc ky kx) acc) 0

/-- `REF(oc, oy, ox)` (46_conv_sequencer.md R355). -/
def refOut (c : Cfg) (m : Memory) (oc oy ox : Int) : Int :=
  finishAcc c m oc (addBias c (refSum c m oc oy ox) (biasElem c m oc))

end Sys2Proof.Machine
end

