-- ==== Sys2Proof/Safety.lean ====
section
/-! DEFINITION. The terms in which statements speak of a safe run: legal configurations, the invariant of
the register file, and what the ring and the staged kernel hold. -/

namespace Sys2Proof.Machine

/-- The step goes on: neither a fault nor a refusal. -/
def goesOn (o : Host.Outcome State Fault Refusal) : Prop := ∃ t, o = .next t

/-- v is a value of the element type: its range, or a 32-bit pattern (00_scope.md R14). -/
def ElemType.holds (t : ElemType) (v : Int) : Prop :=
  match t with
  | .f32 => 0 ≤ v ∧ v < 2 ^ 32
  | .s8 => -(2 ^ 7) ≤ v ∧ v < 2 ^ 7
  | .s16 => -(2 ^ 15) ≤ v ∧ v < 2 ^ 15
  | .s32 => -(2 ^ 31) ≤ v ∧ v < 2 ^ 31
  | .s64 => -(2 ^ 63) ≤ v ∧ v < 2 ^ 63

/-- What CheckShape() demands (40_planner.md R172). -/
structure ShapeLegal (c : Cfg) : Prop where
  /-- S1 -/
  prec : 0 ≤ c.prec.toInt ∧ c.prec.toInt ≤ 5
  /-- S2 -/
  layout : c.layout.toInt = 0 ∨ c.layout.toInt = 1
  /-- S3, input -/
  input : 0 < c.inH.toInt ∧ 0 < c.inW.toInt ∧ 0 < c.inC.toInt
  /-- S3, output -/
  output : 0 < c.outH.toInt ∧ 0 < c.outW.toInt
  /-- S3, kernel -/
  kernel : 0 < c.kH.toInt ∧ 0 < c.kW.toInt ∧ 0 < c.chMult.toInt
  /-- S3, strides -/
  strides : 0 < c.strideX.toInt ∧ 0 < c.strideY.toInt
  /-- S3, dilations -/
  dilations : 0 < c.dilX.toInt ∧ 0 < c.dilY.toInt
  /-- S4 -/
  pads : 0 ≤ c.padX.toInt ∧ 0 ≤ c.padY.toInt

/-- A configuration that BEGIN and CONV accept, but for the shift array in memory: all register checks
pass (40_planner.md R172, R173, 46_conv_sequencer.md R352 A1 to A8) and the regions are placed and
disjoint (20_memory.md R103, R116). -/
structure ConfigLegal (p : Config.Params) (c : Cfg) : Prop where
  /-- `CheckShape()` passes. -/
  shape : checkShape c = none
  /-- `CheckCapacity()` passes. -/
  capacity : checkCapacity p c = none
  /-- `CheckArgs()` passes, steps A1 to A8. -/
  args : checkArgs c = none
  /-- R103. -/
  placed : c.regionsPlaced p = true
  /-- R116. -/
  disjoint : c.regionsDisjoint p = true

/-- The order of the validity flags (46_conv_sequencer.md R362: "`CB_STATE` ≠ 0 implies `DEC_VALID` = 1,
and every valid flag implies `OPEN` = 1"; 10_state.md R77 for the last two). -/
structure Status.Ordered (st : Status) : Prop where
  /-- DEC_VALID implies OPEN. -/
  dec : st.decValid = true → st.callOpen = true
  /-- KPAD_VALID implies OPEN. -/
  kpad : st.kpadValid = true → st.callOpen = true
  /-- CB_STATE ≠ 0 implies DEC_VALID. -/
  ring : st.cbState ≠ .uninitialized → st.decValid = true
  /-- KS_VALID implies KPAD_VALID. -/
  staged : st.ksValid = true → st.kpadValid = true
  /-- ACC_VALID implies KS_VALID and CB_STATE ≠ 0. -/
  acc : st.accValid = true → st.ksValid = true ∧ st.cbState ≠ .uninitialized

/-- The layout registers hold the plan of the configuration (10_state.md R52, R55, 40_planner.md R175). -/
structure LayoutStored (s : State) : Prop where
  /-- `CB_CAP` -/
  cap : s.book.cbCap.toInt = s.cfg.ringCapacity s.params
  /-- `CB_ENTRY_BYTES` -/
  entryBytes : s.book.cbEntryBytes.toInt = s.cfg.entryBytes
  /-- `CB_LINE` -/
  line : s.book.cbLine.toInt = s.cfg.axes.line
  /-- `LAY_CB` -/
  offCb : s.book.layCb.toInt = Cfg.offCb s.params
  /-- `LAY_KS` -/
  offKs : s.book.layKs.toInt = s.cfg.offKs s.params
  /-- `LAY_ACC` -/
  offAcc : s.book.layAcc.toInt = s.cfg.offAcc s.params
  /-- `LAY_TOTAL` -/
  total : s.book.layTotal.toInt = s.cfg.scratchTotal s.params
  /-- `LAY_KCPAD` -/
  kernelLine : s.book.layKcpad.toInt = s.cfg.kernelLine s.params

/-- The decomposition registers hold the decomposition of the ring axis (10_state.md R50). -/
structure DecompositionStored (s : State) : Prop where
  /-- `DEC_G` -/
  g : s.book.decG.toInt = s.cfg.axes.commonDivisor
  /-- `DEC_COUNT` -/
  count : s.book.decCount.toInt = s.cfg.axes.classCount
  /-- `DEC_RSTRIDE` -/
  rstride : s.book.decRstride.toInt = s.cfg.axes.reducedStride

/-- The ring registers while the circular buffer is initialised (10_state.md R51, R52,
41_circular_buffer.md R197, R198). -/
structure RingConsistent (s : State) : Prop where
  /-- `CTX_IC` is a channel of the input. -/
  channel : 0 ≤ s.ctx.ic.toInt ∧ s.ctx.ic.toInt < s.cfg.inC.toInt
  /-- `CTX_RES` is a residue class. -/
  resClass : 0 ≤ s.ctx.res.toInt ∧ s.ctx.res.toInt < s.cfg.axes.classCount
  /-- `SUB_NOUT` -/
  nout : s.book.subNout.toInt = s.cfg.axes.subOutputs s.ctx.res.toInt
  /-- `SUB_LEAD` -/
  lead : s.book.subLead.toInt = s.cfg.axes.subLead s.ctx.res.toInt
  /-- `SUB_NENT` -/
  nent : s.book.subNent.toInt = s.cfg.axes.subEntries s.ctx.res.toInt
  /-- `CB_CURSOR = CB_FED mod CB_CAP` -/
  cursor : s.book.cbCursor.toInt = s.book.cbFed.toInt % s.book.cbCap.toInt
  /-- `0 ≤ CB_VALID ≤ CB_CAP`, and no more entries are valid than were fed. -/
  valid : 0 ≤ s.book.cbValid.toInt ∧ s.book.cbValid.toInt ≤ s.book.cbCap.toInt ∧
    s.book.cbValid.toInt ≤ s.book.cbFed.toInt
  /-- No more entries are fed than the sub-convolution consumes. -/
  fed : s.book.cbFed.toInt ≤ s.cfg.axes.subEntries s.ctx.res.toInt

/-- The tile the accumulator staging region holds (10_state.md R54, 44_requantization.md R280). -/
structure TileConsistent (s : State) : Prop where
  /-- `ACC_J0` = `CTX_J0`: the tile goes where it was computed for. -/
  start : s.book.accJ0 = s.ctx.j0 ∧ 0 ≤ s.book.accJ0.toInt
  /-- `1 ≤ ACC_N ≤ R_ITER` -/
  size : 1 ≤ s.book.accN.toInt ∧ s.book.accN.toInt ≤ s.params.rIter
  /-- `ACC_J0 + ACC_N ≤ SUB_NOUT` -/
  inside : s.book.accJ0.toInt + s.book.accN.toInt ≤ s.book.subNout.toInt

/-- The invariant of the machine. -/
structure Inv (s : State) : Prop where
  /-- The implementation parameters meet their constraints. -/
  params : s.params.ok = true
  /-- Memory is in its canonical form. -/
  mem : s.mem.wf = true
  /-- The validity flags are ordered. -/
  flags : s.status.Ordered
  /-- While a call is open its configuration is legal. -/
  config : s.status.callOpen = true → ConfigLegal s.params s.cfg
  /-- While a call is open the layout registers hold its plan. -/
  layout : s.status.callOpen = true → LayoutStored s
  /-- While DEC_VALID = 1 the decomposition registers hold the decomposition. -/
  decomposition : s.status.decValid = true → DecompositionStored s
  /-- While CB_STATE ≠ 0 the ring registers are consistent. -/
  ring : s.status.cbState ≠ .uninitialized → RingConsistent s
  /-- While KS_VALID = 1 the context names an output channel. -/
  kernel : s.status.ksValid = true →
    0 ≤ s.ctx.ic.toInt ∧ s.ctx.ic.toInt < s.cfg.inC.toInt ∧
      0 ≤ s.ctx.m.toInt ∧ s.ctx.m.toInt < s.cfg.chMult.toInt
  /-- While ACC_VALID = 1 the accumulator registers name a tile. -/
  tile : s.status.accValid = true → TileConsistent s

/-- Every resident entry's slot holds the samples of its row or column of the padded tensor
(41_circular_buffer.md R197, R203). -/
def RingHolds (s : State) : Prop :=
  ∀ nn u : Int, s.oldestEntry ≤ nn → nn < s.book.cbFed.toInt → 0 ≤ u → u < s.cfg.axes.line →
    s.windowSample nn u =
      ringSample s.cfg s.mem s.ctx.ic.toInt (s.cfg.axes.entryCoord s.ctx.res.toInt nn) u

/-- The staging region holds the taps of the filter of (`CTX_IC`, `CTX_M`) (10_state.md R76). -/
def StagingHolds (s : State) : Prop :=
  ∀ ta tc : Int, 0 ≤ ta → ta < s.cfg.axes.kA → 0 ≤ tc → tc < s.cfg.axes.kC →
    s.stagedTap ta tc = kernelElem s.cfg s.mem s.contextChannel ta tc

/-- A byte the engine may write during the call: the output tensor, or the scratch region after its
header (20_memory.md R114, R115). -/
def writableByCall (p : Config.Params) (c : Cfg) (a : Nat) : Bool :=
  c.outputRegion.has a || ((c.scratchRegion p).has a && decide (c.scratchPtr.toNat + p.hdrBytes ≤ a))

/-- A number of a CFG register (10_state.md R32, R33). -/
def isCfgNumber (no : Nat) : Bool :=
  (decide (0x08 ≤ no) && decide (no ≤ 0x0E)) || (decide (0x10 ≤ no) && decide (no ≤ 0x28))

/-- A number of a CTX register (10_state.md R33). -/
def isCtxNumber (no : Nat) : Bool := decide (0x30 ≤ no) && decide (no ≤ 0x33)

/-- A number of a read-only register (10_state.md R33, class RO). -/
def isReadOnlyNumber (no : Nat) : Bool :=
  decide (no = 0x00) || (decide (0x03 ≤ no) && decide (no ≤ 0x07)) ||
    (decide (0x38 ≤ no) && decide (no ≤ 0x3D)) || (decide (0x40 ≤ no) && decide (no ≤ 0x4C)) ||
    (decide (0x50 ≤ no) && decide (no ≤ 0x54))

/-- A reserved register number (10_state.md R33, last sentence; R32). -/
def isReservedNumber (no : Nat) : Bool :=
  decide (no = 0x0F) || (decide (0x29 ≤ no) && decide (no ≤ 0x2F)) ||
    (decide (0x34 ≤ no) && decide (no ≤ 0x37)) || decide (no = 0x3E) || decide (no = 0x3F) ||
    (decide (0x4D ≤ no) && decide (no ≤ 0x4F)) || decide (0x55 ≤ no)

/-- What no command writes: the configuration registers (10_state.md R32, class CFG), the
implementation parameters and the host's side of the interface. -/
structure KeepsSetup (s t : State) : Prop where
  /-- The implementation parameters. -/
  params : t.params = s.params
  /-- The CFG registers. -/
  cfg : t.cfg = s.cfg
  /-- The host's transactions still to come. -/
  hostQueue : t.hostQueue = s.hostQueue
  /-- The host's last reply. -/
  reply : t.reply = s.reply

/-- The address lies at least `start` and less than `stop` bytes after the scratch pointer. -/
def inScratch (c : Cfg) (start stop : Int) (a : Nat) : Bool :=
  decide ((c.scratchPtr.toNat : Int) + start ≤ a) && decide ((a : Int) < c.scratchPtr.toNat + stop)

/-- The bytes each command may write (20_memory.md R114, R115). END and CONV release the scratch region
after its header (93_implementation_defined.md U7, log 3). -/
def commandWrites (i : Instr) (p : Config.Params) (c : Cfg) (a : Nat) : Bool :=
  match i with
  | .nop => false
  | .getsize => false
  | .callBegin => false
  | .callEnd => inScratch c (Cfg.offCb p) (c.scratchTotal p) a
  | .conv => writableByCall p c a
  | .decomp => false
  | .cbInit => inScratch c (Cfg.offCb p) (c.offKs p) a
  | .cbFeed _ => inScratch c (Cfg.offCb p) (c.offKs p) a
  | .ksClear => inScratch c (c.offKs p) (c.offAcc p) a
  | .kstage => inScratch c (c.offKs p) (c.offAcc p) a
  | .macTile _ => inScratch c (c.offAcc p) (c.scratchTotal p) a
  | .reqWrite => c.outputRegion.has a

/-- The cause codes a command may report, 0 for success (60_exceptions.md R393, column "raised by"). -/
def causesOf (i : Instr) : List Nat :=
  match i with
  | .nop => [0]
  | .getsize => [0, 3, 4, 7, 8, 9]
  | .callBegin => [0, 1, 2, 3, 4, 5, 6, 7, 8, 9, 10]
  | .callEnd => [0, 16]
  | .conv => [0, 1, 2, 3, 4, 5, 6, 7, 8, 9, 10]
  | .decomp => [0, 16]
  | .cbInit => [0, 16, 18]
  | .cbFeed _ => [0, 16, 18]
  | .ksClear => [0, 16]
  | .kstage => [0, 16, 18]
  | .macTile _ => [0, 16, 18, 19]
  | .reqWrite => [0, 16]

/-- A staging position that holds no tap (42_kernel_stager.md R233: "p not a multiple of `D_c`, or
with p > (K_c − 1) × D_c"). -/
def holdsNoTap (c : Cfg) (p : Int) : Prop :=
  p % c.axes.dC ≠ 0 ∨ (c.axes.kC - 1) * c.axes.dC < p

/-- Every staging position without a tap holds `PK` (10_state.md R76, 42_kernel_stager.md R233). -/
def StagingPadHolds (s : State) : Prop :=
  ∀ ta p : Int, 0 ≤ ta → ta < s.cfg.axes.kA → 0 ≤ p → p < s.book.layKcpad.toInt → holdsNoTap s.cfg p →
    s.mem.load (s.stagedAddr ta p) s.cfg.precision.tK = s.cfg.padKer

/-- The output row of ring-axis coordinate `oa` and cross-axis coordinate `wc` (10_state.md R60). -/
def Cfg.outputRow (c : Cfg) (oa wc : Int) : Int := if c.channelFirst then oa else wc

/-- The output column of ring-axis coordinate `oa` and cross-axis coordinate `wc` (10_state.md R60). -/
def Cfg.outputColumn (c : Cfg) (oa wc : Int) : Int := if c.channelFirst then wc else oa

namespace F32

/-- A number: neither infinite nor a NaN. -/
def isFinite (b : Word) : Bool := expField b != 255

/-- The value of a finite pattern (44_requantization.md R300, IEEE 754). -/
def value (b : Word) : ℚ :=
  (if neg b then -1 else 1) * (mant b : ℚ) * 2 ^ ((scale b : ℤ) - 150)

/-- `r` is the exact value `x` rounded to the nearest finite pattern, ties to the one whose last
significand bit is 0; or `x` is so large that it rounds past the largest finite number, and `r` is the
infinity of its sign (44_requantization.md R300). -/
def RoundsTo (x : ℚ) (r : Word) : Prop :=
  (isFinite r = true ∧ |x| < (2 ^ 25 - 1) * 2 ^ 103 ∧ ∀ y : Word, isFinite y = true →
      |value r - x| ≤ |value y - x| ∧
        (|value r - x| = |value y - x| → value y ≠ value r → r.getLsbD 0 = false)) ∨
    (r = infinity false ∧ (2 ^ 25 - 1) * 2 ^ 103 ≤ x) ∨
    (r = infinity true ∧ x ≤ -((2 ^ 25 - 1) * 2 ^ 103))

end F32

end Sys2Proof.Machine
end

