-- ==== Sys2Proof/Certificates/Slice0/Obligations.lean ====
section
/-! DEFINITION. The statements for the provers. Names in backticks are the spec's; a rule R<n> is a rule
of spec/. -/

open Sys2Proof Sys2Proof.Machine

/-! ## Encoding -/

/-- R141, R142, R143: no bit of an encoding is dropped. -/
def Obligations.DecodeOfEncode : Prop :=
  ∀ i : Instr, wellFormed i = true → decode (encode i) = .ok i

/-- R143: "a word w encodes the command iff `w AND mask = match`"; R142: the operand is bits [15:8].
A legal word so has one meaning, and the encoder writes the word back. -/
def Obligations.DecodeIffOpcodeRow : Prop :=
  ∀ (w : Word) (i : Instr),
    (decode w = .ok i ↔
      (w &&& rowMask i = rowMatch i ∧
        ∀ n, i = .cbFeed n ∨ i = .macTile n → n = (w.extractLsb' 8 8).toNat)) ∧
    (decode w = .ok i → wellFormed i = true ∧ encode i = w)

/-- R144: which words are illegal, and that an illegal word changes nothing but the result registers
and ERR. -/
def Obligations.IllegalWordRaisesCmdError : Prop :=
  ∀ w : Word,
    ((∀ i, w &&& rowMask i ≠ rowMatch i) ↔
      ((w.extractLsb' 0 8).toNat ∉
          [0x00, 0x01, 0x02, 0x03, 0x04, 0x08, 0x10, 0x11, 0x18, 0x19, 0x20, 0x28] ∨
        (w.extractLsb' 16 16).toNat ≠ 0 ∨
        ((w.extractLsb' 8 8).toNat ≠ 0 ∧ (w.extractLsb' 0 8).toNat ∉ [0x11, 0x20]))) ∧
    ((∀ i, w &&& rowMask i ≠ rowMatch i) → ∀ s : State,
      regWrite 0x01 w s = .next { s with
        resultLo := 0xFFFFFFFF
        resultHi := 0xFFFFFFFF
        cause := 17
        causeInfo := BitVec.ofNat 32 (w.extractLsb' 0 16).toNat
        status := { s.status with err := true } })

/-- R149, the worked encodings. -/
def Obligations.WorkedEncodings : Prop :=
  decode 0x00000001 = .ok .getsize ∧ decode 0x00000211 = .ok (.cbFeed 2) ∧
    decode 0x00000120 = .ok (.macTile 1) ∧ decode 0x00000028 = .ok .reqWrite ∧
    ∀ s : State,
      regWrite 0x01 0x00000128 s = .next (s.raiseErr { cause := .command, info := 0x0128 }) ∧
      regWrite 0x01 0x00010004 s = .next (s.raiseErr { cause := .command, info := 0x0004 }) ∧
      regWrite 0x01 0x00000005 s = .next (s.raiseErr { cause := .command, info := 0x0005 })

/-! ## Steps and host transactions -/

/-- R35, R140: when the oldest transaction to come writes a command word to CMD, a step takes it from
the queue and runs the command; nothing else happens around it. -/
def Obligations.StepRunsDecodedCommand : Prop :=
  ∀ (s : State) (w : Word) (rest : List HostTxn) (i : Instr),
    s.hostQueue = .regWrite 0x01 w :: rest → decode w = .ok i →
      step s = exec i { s with hostQueue := rest }

/-- R140, R58: the other host transactions and the idle step. The queue and the reply are the model's own
fields (log 1, log 14, log 15). -/
def Obligations.StepPerformsHostTransaction : Prop :=
  ∀ s : State,
    (s.hostQueue = [] → step s = .next s) ∧
    (∀ no rest, s.hostQueue = .regRead no :: rest →
      step s = .next { s with hostQueue := rest, reply := .word (s.readReg no) }) ∧
    (∀ no w rest, no ≠ 0x01 → s.hostQueue = .regWrite no w :: rest →
      step s = .next (({ s with hostQueue := rest } : State).writeReg no w)) ∧
    (∀ addr bytes rest, s.hostQueue = .memStore addr bytes :: rest →
      step s = transact (.memStore addr bytes) { s with hostQueue := rest }) ∧
    (∀ addr len rest, s.hostQueue = .memLoad addr len :: rest →
      step s = transact (.memLoad addr len) { s with hostQueue := rest }) ∧
    (∀ rest, s.hostQueue = .reset :: rest →
      step s = .next ({ s with hostQueue := rest } : State).hardReset)

/-- R147 (`mem8`, `chk8`): a host store that touches no byte of an open call's regions is made, reads back,
and leaves every other byte alone. R122: a host load is always allowed and returns the bytes that stand
there, inside an open call's regions too. R122, U6: a store that does touch such a byte is refused (log 6).
The reply field, and the fault of an access that reaches 2^32, are the model's choice (log 14). -/
def Obligations.HostMemoryAccess : Prop :=
  ∀ (s : State) (addr : Nat) (bytes : List Byte) (len : Nat),
    (addr + bytes.length ≤ 2 ^ 32 →
      ((∀ i < bytes.length, s.ownedByCall (addr + i) = false) →
        ∃ m : Memory,
          transact (.memStore addr bytes) s = .next { s with mem := m } ∧
          transact (.memLoad addr bytes.length) { s with mem := m } =
            .next { s with mem := m, reply := .bytes bytes } ∧
          ∀ a, (a < addr ∨ addr + bytes.length ≤ a) → m.read a = s.mem.read a) ∧
      ((∃ i < bytes.length, s.ownedByCall (addr + i) = true) →
        transact (.memStore addr bytes) s = .refused .hostWroteOwnedRegion)) ∧
    (addr + len ≤ 2 ^ 32 →
      ∃ read : List Byte,
        transact (.memLoad addr len) s = .next { s with reply := .bytes read } ∧
          read.length = len ∧ ∀ i < len, read[i]? = some (s.mem.read (addr + i))) ∧
    (2 ^ 32 < addr + bytes.length → transact (.memStore addr bytes) s = .fault .noSuchAddress) ∧
    (2 ^ 32 < addr + len → transact (.memLoad addr len) s = .fault .noSuchAddress)

/-- R102: what `MemWrite` stores, what it leaves alone, that `MemRead` reads it back, and that an f32
element is its 32-bit pattern in that order. -/
def Obligations.LittleEndianAccess : Prop :=
  ∀ (m : Memory) (addr n : Nat) (v : Int), n ∈ [1, 2, 4, 8] →
    (∀ i < n, (m.writeLE addr n v).read ((addr + i) % 2 ^ 32) = BitVec.ofInt 8 (v / 256 ^ i)) ∧
    (∀ a, (∀ i < n, a ≠ (addr + i) % 2 ^ 32) → (m.writeLE addr n v).read a = m.read a) ∧
    ((m.writeLE addr n v).readLE addr n : Int) = v % 256 ^ n ∧
    m.readLE addr n = ∑ i ∈ Finset.range n, (m.read ((addr + i) % 2 ^ 32)).toNat * 256 ^ i ∧
    m.load addr .f32 = m.readLE addr 4

/-! ## The register file -/

/-- R58: "A host write to an RO register or to a reserved number changes nothing. A host read has no side
effect on any register." R32: CMD and reserved numbers read 0. R34, R39: what ID and PARAM read. That a
read leaves its value in the reply field is the model's choice (log 14). -/
def Obligations.ReadOnlyAndReservedRegisters : Prop :=
  ∀ (s : State) (no : Nat),
    ((isReadOnlyNumber no = true ∨ isReservedNumber no = true) → ∀ w, regWrite no w s = .next s) ∧
    (transact (.regRead no) s = .next { s with reply := .word (s.readReg no) }) ∧
    ((isReservedNumber no = true ∨ no = 0x01) → s.readReg no = 0) ∧
    s.readReg 0x00 = 0x44570407 ∧
    (s.params.ok = true →
      ((s.readReg 0x07).extractLsb' 0 8).toNat = s.params.rIter ∧
      ((s.readReg 0x07).extractLsb' 8 8).toNat = s.params.kwAlign ∧
      ((s.readReg 0x07).extractLsb' 16 16).toNat = s.params.hdrBytes)

/-- R56: a host write to a CFG register stores the value and closes any open call; no other register
and no memory byte changes. -/
def Obligations.CfgWriteClosesCall : Prop :=
  ∀ (s : State) (no : Nat) (w : Word), isCfgNumber no = true →
    ∃ c : Cfg,
      regWrite no w s = .next { s with
        cfg := c
        status := { s.status with
          callOpen := false, decValid := false, kpadValid := false, ksValid := false
          accValid := false, cbState := .uninitialized } } ∧
      ({ s with cfg := c } : State).readReg no = w ∧
      ∀ no', isCfgNumber no' = true → no' ≠ no →
        ({ s with cfg := c } : State).readReg no' = s.readReg no'

/-- R57: a host write to a CTX register stores the value and invalidates what depended on it. -/
def Obligations.CtxWriteInvalidates : Prop :=
  ∀ (s : State) (w : Word),
    regWrite 0x30 w s = .next { s with
      ctx := { s.ctx with ic := w }
      status := { s.status with cbState := .uninitialized, ksValid := false, accValid := false } } ∧
    regWrite 0x31 w s = .next { s with
      ctx := { s.ctx with m := w }
      status := { s.status with ksValid := false, accValid := false } } ∧
    regWrite 0x32 w s = .next { s with
      ctx := { s.ctx with res := w }
      status := { s.status with cbState := .uninitialized, accValid := false } } ∧
    regWrite 0x33 w s = .next { s with
      ctx := { s.ctx with j0 := w }
      status := { s.status with accValid := false } }

/-- R36: where each field of `STATUS` stands in the word a read returns. R59: what a write of `STATUS`
clears. -/
def Obligations.StatusFields : Prop :=
  ∀ s : State,
    ((s.readReg 0x02).extractLsb' 0 2).toNat = (match s.status.cbState with
      | .uninitialized => 0
      | .primed => 1
      | .streaming => 2) ∧
    (s.readReg 0x02).getLsbD 2 = s.status.callOpen ∧
    (s.readReg 0x02).getLsbD 3 = s.status.decValid ∧
    (s.readReg 0x02).getLsbD 4 = s.status.kpadValid ∧
    (s.readReg 0x02).getLsbD 5 = s.status.ksValid ∧
    (s.readReg 0x02).getLsbD 6 = s.status.accValid ∧
    (s.readReg 0x02).getLsbD 7 = false ∧
    (s.readReg 0x02).getLsbD 8 = s.status.err ∧
    (s.readReg 0x02).getLsbD 9 = s.status.underrun ∧
    (s.readReg 0x02).getLsbD 10 = s.status.accOvf ∧
    (∀ k, 11 ≤ k → (s.readReg 0x02).getLsbD k = false) ∧
    ∀ w : Word, regWrite 0x02 w s = .next { s with status := { s.status with
      err := s.status.err && !w.getLsbD 8
      underrun := s.status.underrun && !w.getLsbD 9
      accOvf := s.status.accOvf && !w.getLsbD 10 } }

/-- R79: "After reset every register holds the value in the "reset" column of rule R33", and GETSIZE,
BEGIN and CONV straight after reset fail with E_SIZE at `IN_H`. R430: the reset input gives every
register that value and leaves memory alone. -/
def Obligations.ResetValues : Prop :=
  (∀ no, no ≠ 0x00 → no ≠ 0x07 → State.reset.readReg no = 0) ∧
  State.reset.readReg 0x00 = 0x44570407 ∧ State.reset.readReg 0x07 = 0x00400402 ∧
  (∀ i, i = .getsize ∨ i = .callBegin ∨ i = .conv →
    exec i State.reset = .next (State.reset.raiseErr { cause := .size, info := 0x10 })) ∧
  ∀ s : State, ∃ t : State, transact .reset s = .next t ∧ t.mem = s.mem ∧
    t.readReg 0x07 = s.readReg 0x07 ∧ t.readReg 0x00 = 0x44570407 ∧
    ∀ no, no ≠ 0x00 → no ≠ 0x07 → t.readReg no = 0

/-! ## How commands end -/

/-- R390, R398: no command faults; the model's only refusals are those of BEGIN and CONV for regions
that breach the host's duties (U4, U5, log 5). -/
def Obligations.CommandsNeverFault : Prop :=
  ∀ (i : Instr) (s : State),
    (∀ f, exec i s ≠ .fault f) ∧
    (∀ r, exec i s = .refused r →
      (i = .callBegin ∨ i = .conv) ∧ (r = .regionMisplaced ∨ r = .regionsOverlap))

/-- R391: a command that ends with an error sets RESULT to -1 and ERR and changes nothing else, but for
the `STATUS` changes its rule makes before it raises. -/
def Obligations.ErrorChangesNothingElse : Prop :=
  ∀ (i : Instr) (s t : State), exec i s = .next t → t.cause ≠ 0 →
    ∃ st : Status,
      t = { s with
        resultLo := 0xFFFFFFFF, resultHi := 0xFFFFFFFF, cause := t.cause, causeInfo := t.causeInfo
        status := { st with err := true } } ∧
      st = (if i = .callBegin ∨ i = .conv then
          { s.status with
            callOpen := false, decValid := false, kpadValid := false, ksValid := false
            accValid := false, cbState := .uninitialized }
        else if t.cause = 19 then { s.status with accValid := false, underrun := true }
        else s.status)

/-- R392: a command that ends with success reports its value, 0 for every command but GETSIZE, clears
CAUSE and CAUSE_INFO, and leaves ERR alone. -/
def Obligations.SuccessReportsResult : Prop :=
  ∀ (i : Instr) (s t : State), s.params.ok = true → exec i s = .next t → t.cause = 0 →
    t.causeInfo = 0 ∧ t.status.err = s.status.err ∧ 0 ≤ t.resultValue ∧
      t.resultValue = (if i = .getsize then s.cfg.scratchTotal s.params else 0)

/-- R393: a command reports no cause but those its row of the cause list allows. -/
def Obligations.CausesPerCommand : Prop :=
  ∀ (i : Instr) (s t : State), exec i s = .next t → t.cause.toNat ∈ causesOf i

/-- R400: commands never clear a sticky flag; only MAC_TILE's early return sets UNDERRUN; only MAC_TILE
and CONV set ACC_OVF. -/
def Obligations.CommandsKeepStickyFlags : Prop :=
  ∀ (i : Instr) (s t : State), exec i s = .next t →
    (s.status.err = true → t.status.err = true) ∧
    (s.status.underrun = true → t.status.underrun = true) ∧
    (s.status.accOvf = true → t.status.accOvf = true) ∧
    (t.status.underrun = true → s.status.underrun = true ∨ (∃ n, i = .macTile n) ∧ t.cause = 19) ∧
    (t.status.accOvf = true → s.status.accOvf = true ∨
      ((∃ n, i = .macTile n) ∨ i = .conv) ∧ t.cause = 0 ∧ s.cfg.precision = .s8s16)

/-- R32 (class CFG: "engine write never"; class CTX: "CONV only"). -/
def Obligations.CommandsKeepConfiguration : Prop :=
  ∀ (i : Instr) (s t : State), exec i s = .next t →
    KeepsSetup s t ∧ (i ≠ .conv → t.ctx = s.ctx)

/-- R362, the table of state preconditions, tested left to right; then R145, the range of the operand n;
then the ranges of the context registers (R192, R194, R232, R250), in the order of R394. -/
def Obligations.InterlockTable : Prop :=
  ∀ s : State,
    (s.status.callOpen = false → ∀ i,
      (i = .callEnd ∨ i = .decomp ∨ i = .cbInit ∨ (∃ n, i = .cbFeed n) ∨ i = .ksClear ∨ i = .kstage ∨
        (∃ n, i = .macTile n) ∨ i = .reqWrite) →
      exec i s = .next (s.raiseErr { cause := .sequence, info := 1 })) ∧
    (s.status.callOpen = true →
      (s.status.decValid = false →
        exec .cbInit s = .next (s.raiseErr { cause := .sequence, info := 2 })) ∧
      (s.status.cbState = .uninitialized → ∀ n,
        exec (.cbFeed n) s = .next (s.raiseErr { cause := .sequence, info := 3 }) ∧
        exec (.macTile n) s = .next (s.raiseErr { cause := .sequence, info := 3 })) ∧
      (s.status.kpadValid = false →
        exec .kstage s = .next (s.raiseErr { cause := .sequence, info := 4 })) ∧
      (s.status.cbState ≠ .uninitialized → s.status.ksValid = false → ∀ n,
        exec (.macTile n) s = .next (s.raiseErr { cause := .sequence, info := 5 })) ∧
      (s.status.accValid = false →
        exec .reqWrite s = .next (s.raiseErr { cause := .sequence, info := 6 })) ∧
      (s.status.cbState ≠ .uninitialized → ∀ n, (n = 0 ∨ s.params.rIter < n) →
        exec (.cbFeed n) s = .next (s.raiseErr { cause := .context, info := 0x01 }) ∧
        (s.status.ksValid = true →
          exec (.macTile n) s = .next (s.raiseErr { cause := .context, info := 0x01 }))) ∧
      (s.status.decValid = true →
        (¬(0 ≤ s.ctx.ic.toInt ∧ s.ctx.ic.toInt < s.cfg.inC.toInt) →
          exec .cbInit s = .next (s.raiseErr { cause := .context, info := 0x30 })) ∧
        ((0 ≤ s.ctx.ic.toInt ∧ s.ctx.ic.toInt < s.cfg.inC.toInt) →
          ¬(0 ≤ s.ctx.res.toInt ∧ s.ctx.res.toInt < s.book.decCount.toInt) →
          exec .cbInit s = .next (s.raiseErr { cause := .context, info := 0x32 }))) ∧
      (s.status.kpadValid = true →
        (¬(0 ≤ s.ctx.ic.toInt ∧ s.ctx.ic.toInt < s.cfg.inC.toInt) →
          exec .kstage s = .next (s.raiseErr { cause := .context, info := 0x30 })) ∧
        ((0 ≤ s.ctx.ic.toInt ∧ s.ctx.ic.toInt < s.cfg.inC.toInt) →
          ¬(0 ≤ s.ctx.m.toInt ∧ s.ctx.m.toInt < s.cfg.chMult.toInt) →
          exec .kstage s = .next (s.raiseErr { cause := .context, info := 0x31 }))) ∧
      (s.status.cbState ≠ .uninitialized → ∀ n : Nat, 1 ≤ n → n ≤ s.params.rIter →
        ¬(0 ≤ s.ctx.j0.toInt ∧ s.ctx.j0.toInt + n ≤ s.book.subNout.toInt) →
        exec (.cbFeed n) s = .next (s.raiseErr { cause := .context, info := 0x33 }) ∧
        (s.status.ksValid = true →
          exec (.macTile n) s = .next (s.raiseErr { cause := .context, info := 0x33 }))))

/-! ## NOP and the planner -/

/-- R350: NOP changes nothing except RESULT, CAUSE and CAUSE_INFO. -/
def Obligations.NopCompletes : Prop :=
  ∀ s : State,
    exec .nop s = .next { s with resultLo := 0, resultHi := 0, cause := 0, causeInfo := 0 }

/-- R171: GETSIZE on a legal shape returns TOTAL, a positive multiple of 8 of at most 2^31 - 1, and
changes nothing but the result registers. -/
def Obligations.GetsizeReturnsTotal : Prop :=
  ∀ s : State, s.params.ok = true → ShapeLegal s.cfg →
    (∀ k ∈ capacityQuantities s.params s.cfg, k.2 ≤ 2 ^ 31 - 1) →
      exec .getsize s = .next { s with
        resultLo := BitVec.ofInt 32 (s.cfg.scratchTotal s.params)
        resultHi := 0, cause := 0, causeInfo := 0 } ∧
      0 < s.cfg.scratchTotal s.params ∧ s.cfg.scratchTotal s.params % 8 = 0 ∧
      s.cfg.scratchTotal s.params ≤ 2 ^ 31 - 1

/-- R172: the shape checks in their order; GETSIZE, BEGIN and CONV end with the first that fails. -/
def Obligations.ShapeCheckOrder : Prop :=
  (∀ c : Cfg, checkShape c =
    if ¬(0 ≤ c.prec.toInt ∧ c.prec.toInt ≤ 5) then some { cause := .precision, info := 0x1F }
    else if ¬(c.layout.toInt = 0 ∨ c.layout.toInt = 1) then some { cause := .layout, info := 0x1E }
    else if c.inH.toInt ≤ 0 then some { cause := .size, info := 0x10 }
    else if c.inW.toInt ≤ 0 then some { cause := .size, info := 0x11 }
    else if c.inC.toInt ≤ 0 then some { cause := .size, info := 0x12 }
    else if c.outH.toInt ≤ 0 then some { cause := .size, info := 0x13 }
    else if c.outW.toInt ≤ 0 then some { cause := .size, info := 0x14 }
    else if c.kH.toInt ≤ 0 then some { cause := .size, info := 0x15 }
    else if c.kW.toInt ≤ 0 then some { cause := .size, info := 0x16 }
    else if c.chMult.toInt ≤ 0 then some { cause := .size, info := 0x17 }
    else if c.strideX.toInt ≤ 0 then some { cause := .size, info := 0x18 }
    else if c.strideY.toInt ≤ 0 then some { cause := .size, info := 0x19 }
    else if c.dilX.toInt ≤ 0 then some { cause := .size, info := 0x1A }
    else if c.dilY.toInt ≤ 0 then some { cause := .size, info := 0x1B }
    else if c.padX.toInt < 0 then some { cause := .pad, info := 0x1C }
    else if c.padY.toInt < 0 then some { cause := .pad, info := 0x1D }
    else none) ∧
  ∀ (s : State) (e : CmdError), checkShape s.cfg = some e →
    exec .getsize s = .next (s.raiseErr e) ∧ exec .callBegin s = .next (s.close.raiseErr e) ∧
      exec .conv s = .next (s.close.raiseErr e)

/-- R173: the sixteen quantities in their order; the first above 2^31 - 1 is the error's detail, and the
command ends with that error. Quantity 11 is given with HDR_BYTES where R173 prints 64, the value R10 gives
the parameter: R72 names the header `HDR_BYTES`, and the reading is the model's (DEDUCED, log 7). -/
def Obligations.CapacityCheckOrder : Prop :=
  (∀ (p : Config.Params) (c : Cfg),
    capacityQuantities p c =
      [(1, (c.kW.toInt - 1) * c.dilX.toInt + 1), (2, (c.kH.toInt - 1) * c.dilY.toInt + 1),
       (3, (c.axes.outC - 1) * c.axes.sC + c.axes.dkeC),
       (4, (c.axes.outA - 1) * c.axes.sA + c.axes.dkeA), (5, c.axes.pC + c.axes.inC),
       (6, alignUp (c.axes.line * c.precision.esIn) 8),
       (7, c.axes.dkeA + (p.rIter - 1) * c.axes.sA), (8, c.ringCapacity p * c.entryBytes),
       (9, alignUp (c.axes.kA * c.kernelLine p * c.precision.esK) 8), (10, p.rIter * c.axes.outC * 8),
       (11, p.hdrBytes + c.ringBytes p + c.stagingBytes p + c.accBytes p),
       (12, c.inC.toInt * c.chMult.toInt),
       (13, c.inC.toInt * c.inH.toInt * c.inW.toInt * c.precision.esIn),
       (14, c.outChannels * c.kH.toInt * c.kW.toInt * c.precision.esK),
       (15, c.outChannels * c.outH.toInt * c.outW.toInt * c.precision.esOut),
       (16, c.outChannels * 8)] ∧
    ∀ k : Nat,
      checkCapacity p c = some { cause := .capacity, info := k } ↔
        ∃ q, (k, q) ∈ capacityQuantities p c ∧ 2 ^ 31 - 1 < q ∧
          ∀ j q', (j, q') ∈ capacityQuantities p c → j < k → q' ≤ 2 ^ 31 - 1) ∧
  ∀ (s : State) (e : CmdError), checkShape s.cfg = none → checkCapacity s.params s.cfg = some e →
    exec .getsize s = .next (s.raiseErr e) ∧ exec .callBegin s = .next (s.close.raiseErr e) ∧
      exec .conv s = .next (s.close.raiseErr e)

/-! ## Call control -/

/-- R352, R104, R394: the steps A1 to A8 of `CheckArgs()` in their order, each with its cause and detail, what
it means that all pass, the elements of the shift array in step A9, and that BEGIN and CONV end with the first
step that fails. -/
def Obligations.ArgumentChecks : Prop :=
  (∀ (c : Cfg) (arrays clamps : Bool) (lo hi : Int),
    (arrays = true ↔ c.precision = .pc8 ∨ c.precision = .s8s16) →
    (clamps = true ↔ c.precision = .asym8 ∨ c.precision = .pc8 ∨ c.precision = .s8s16) →
    lo = (if c.precision = .s8s16 then -32768 else -128) →
    hi = (if c.precision = .s8s16 then 32767 else 127) →
    checkArgs c =
      if c.inPtr = 0 then some { cause := .nullPtr, info := 0x08 }
      else if c.kerPtr = 0 then some { cause := .nullPtr, info := 0x09 }
      else if c.biasPtr = 0 then some { cause := .nullPtr, info := 0x0A }
      else if c.outPtr = 0 then some { cause := .nullPtr, info := 0x0B }
      else if c.scratchPtr = 0 then some { cause := .nullPtr, info := 0x0C }
      else if arrays = true ∧ c.multPtr = 0 then some { cause := .nullPtr, info := 0x0D }
      else if arrays = true ∧ c.shiftPtr = 0 then some { cause := .nullPtr, info := 0x0E }
      else if c.inPtr.toNat % c.precision.tIn.size ≠ 0 then some { cause := .misaligned, info := 0x08 }
      else if c.kerPtr.toNat % c.precision.tK.size ≠ 0 then some { cause := .misaligned, info := 0x09 }
      else if c.biasPtr.toNat % c.precision.tB.size ≠ 0 then some { cause := .misaligned, info := 0x0A }
      else if c.outPtr.toNat % c.precision.tOut.size ≠ 0 then some { cause := .misaligned, info := 0x0B }
      else if c.scratchPtr.toNat % 8 ≠ 0 then some { cause := .misaligned, info := 0x0C }
      else if arrays = true ∧ c.multPtr.toNat % 4 ≠ 0 then some { cause := .misaligned, info := 0x0D }
      else if arrays = true ∧ c.shiftPtr.toNat % 4 ≠ 0 then some { cause := .misaligned, info := 0x0E }
      else if (c.precision = .i8 ∨ c.precision = .i16) ∧ ¬(0 ≤ c.accShift.toInt ∧ c.accShift.toInt ≤ 31) then
        some { cause := .shift, info := 0x25 }
      else if (c.precision = .i8 ∨ c.precision = .i16) ∧
          ¬(0 ≤ c.biasShift.toInt ∧ c.biasShift.toInt ≤ 31) then
        some { cause := .shift, info := 0x26 }
      else if c.precision = .asym8 ∧ ¬(-31 ≤ c.outShift.toInt ∧ c.outShift.toInt ≤ 31) then
        some { cause := .shift, info := 0x24 }
      else if (c.precision = .asym8 ∨ c.precision = .pc8) ∧
          ¬(-127 ≤ c.inZb.toInt ∧ c.inZb.toInt ≤ 128) then
        some { cause := .zeroPoint, info := 0x20 }
      else if c.precision = .asym8 ∧ ¬(-127 ≤ c.kerZb.toInt ∧ c.kerZb.toInt ≤ 128) then
        some { cause := .zeroPoint, info := 0x21 }
      else if (c.precision = .asym8 ∨ c.precision = .pc8) ∧
          ¬(-128 ≤ c.outZp.toInt ∧ c.outZp.toInt ≤ 127) then
        some { cause := .zeroPoint, info := 0x22 }
      else if clamps = true ∧ ¬(lo ≤ c.outMin.toInt ∧ c.outMin.toInt ≤ hi) then
        some { cause := .clampRange, info := 0x27 }
      else if clamps = true ∧ ¬(lo ≤ c.outMax.toInt ∧ c.outMax.toInt ≤ hi) then
        some { cause := .clampRange, info := 0x28 }
      else if clamps = true ∧ ¬(c.outMin.toInt ≤ c.outMax.toInt) then
        some { cause := .clampRange, info := 0x2728 }
      else none) ∧
  (∀ (s : State) (e : CmdError), checkShape s.cfg = none → checkCapacity s.params s.cfg = none →
    checkArgs s.cfg = some e →
      exec .callBegin s = .next (s.close.raiseErr e) ∧ exec .conv s = .next (s.close.raiseErr e)) ∧
  ∀ (c : Cfg) (m : Memory),
    (checkArgs c = none ↔
      (c.inPtr ≠ 0 ∧ c.kerPtr ≠ 0 ∧ c.biasPtr ≠ 0 ∧ c.outPtr ≠ 0 ∧ c.scratchPtr ≠ 0) ∧
      (c.precision = .pc8 ∨ c.precision = .s8s16 → c.multPtr ≠ 0 ∧ c.shiftPtr ≠ 0) ∧
      (c.inPtr.toNat % c.precision.tIn.size = 0 ∧ c.kerPtr.toNat % c.precision.tK.size = 0 ∧
        c.biasPtr.toNat % c.precision.tB.size = 0 ∧ c.outPtr.toNat % c.precision.tOut.size = 0 ∧
        c.scratchPtr.toNat % 8 = 0) ∧
      (c.precision = .pc8 ∨ c.precision = .s8s16 →
        c.multPtr.toNat % 4 = 0 ∧ c.shiftPtr.toNat % 4 = 0) ∧
      (c.precision = .i8 ∨ c.precision = .i16 →
        0 ≤ c.accShift.toInt ∧ c.accShift.toInt ≤ 31 ∧ 0 ≤ c.biasShift.toInt ∧
          c.biasShift.toInt ≤ 31) ∧
      (c.precision = .asym8 → -31 ≤ c.outShift.toInt ∧ c.outShift.toInt ≤ 31 ∧
        -127 ≤ c.kerZb.toInt ∧ c.kerZb.toInt ≤ 128) ∧
      (c.precision = .asym8 ∨ c.precision = .pc8 → -127 ≤ c.inZb.toInt ∧ c.inZb.toInt ≤ 128 ∧
        -128 ≤ c.outZp.toInt ∧ c.outZp.toInt ≤ 127 ∧ -128 ≤ c.outMin.toInt ∧
        c.outMin.toInt ≤ c.outMax.toInt ∧ c.outMax.toInt ≤ 127) ∧
      (c.precision = .s8s16 → -32768 ≤ c.outMin.toInt ∧ c.outMin.toInt ≤ c.outMax.toInt ∧
        c.outMax.toInt ≤ 32767)) ∧
    (c.precision = .pc8 ∨ c.precision = .s8s16 →
      (checkShiftArray c m = none ↔ ∀ oc : Nat, (oc : Int) < c.outChannels →
        -31 ≤ shiftElem c m oc ∧ shiftElem c m oc ≤ 31) ∧
      ∀ oc : Nat, (oc : Int) < c.outChannels →
        (shiftElem c m oc < -31 ∨ 31 < shiftElem c m oc) →
        (∀ j : Nat, j < oc → -31 ≤ shiftElem c m j ∧ shiftElem c m j ≤ 31) →
        checkShiftArray c m = some { cause := .shift, info := 0x0E + 256 * (oc % 2 ^ 24) })

/-- R351: BEGIN on a legal configuration whose shift array is in range. Every register it writes; memory,
the CTX registers and the sticky flags stay. -/
def Obligations.BeginOpensCall : Prop :=
  ∀ s : State, ConfigLegal s.params s.cfg → checkShiftArray s.cfg s.mem = none →
    exec .callBegin s = .next { s with
      book :=
        { cbCap := BitVec.ofInt 32 (s.cfg.ringCapacity s.params)
          cbEntryBytes := BitVec.ofInt 32 s.cfg.entryBytes
          cbLine := BitVec.ofInt 32 s.cfg.axes.line
          layCb := BitVec.ofInt 32 s.params.hdrBytes
          layKs := BitVec.ofInt 32 (s.cfg.offKs s.params)
          layAcc := BitVec.ofInt 32 (s.cfg.offAcc s.params)
          layTotal := BitVec.ofInt 32 (s.cfg.scratchTotal s.params)
          layKcpad := BitVec.ofInt 32 (s.cfg.kernelLine s.params)
          cbCursor := 0, cbValid := 0, cbFed := 0, feedAdd := 0, feedReal := 0, accJ0 := 0, accN := 0
          decG := 0, decCount := 0, decRstride := 0, subNout := 0, subLead := 0, subNent := 0 }
      status := { s.status with
        callOpen := true, decValid := false, kpadValid := false, ksValid := false, accValid := false
        cbState := .uninitialized }
      resultLo := 0, resultHi := 0, cause := 0, causeInfo := 0 }

/-- R351, R356, R394: BEGIN and CONV end with the first failing check, after `Close()`. -/
def Obligations.BeginAndConvReject : Prop :=
  ∀ (s : State) (e : CmdError),
    (firstFailure [checkShape s.cfg, checkCapacity s.params s.cfg, checkArgs s.cfg] = some e ∨
      (checkShape s.cfg = none ∧ checkCapacity s.params s.cfg = none ∧ checkArgs s.cfg = none ∧
        s.cfg.shiftRegion.placed = true ∧ checkShiftArray s.cfg s.mem = some e)) →
      exec .callBegin s = .next (s.close.raiseErr e) ∧ exec .conv s = .next (s.close.raiseErr e)

/-- R103, R116, U4, U5: when every check passes but a region is misplaced or the output or scratch
overlaps another region, the model refuses. Where the refusal stands is the model's choice (log 5). -/
def Obligations.BreachedRegionsRefused : Prop :=
  ∀ s : State,
    checkShape s.cfg = none → checkCapacity s.params s.cfg = none → checkArgs s.cfg = none →
    checkShiftArray s.cfg s.mem = none →
      (s.cfg.regionsPlaced s.params = false →
        exec .callBegin s = .refused .regionMisplaced ∧ exec .conv s = .refused .regionMisplaced) ∧
      (s.cfg.regionsPlaced s.params = true → s.cfg.regionsDisjoint s.params = false →
        exec .callBegin s = .refused .regionsOverlap ∧ exec .conv s = .refused .regionsOverlap)

/-- R354: END closes the call; no register changes but the result registers; memory outside the released
part of the scratch region is unchanged. That the released bytes become free values is U7 (log 3); the
draw counter is the model's own (log 4). -/
def Obligations.EndClosesCall : Prop :=
  ∀ s : State, s.status.callOpen = true →
    ∃ m : Memory,
      exec .callEnd s = .next { s with
        mem := m
        freeDraws := s.freeDraws + 1
        status := { s.status with
          callOpen := false, decValid := false, kpadValid := false, ksValid := false
          accValid := false, cbState := .uninitialized }
        resultLo := 0, resultHi := 0, cause := 0, causeInfo := 0 } ∧
      ∀ a, (∀ i < (s.book.layTotal.toInt - s.book.layCb.toInt).toNat,
          a ≠ (ptrPlus s.cfg.scratchPtr s.book.layCb.toInt + i) % 2 ^ 32) →
        m.read a = s.mem.read a

/-! ## The decomposer -/

/-- R330: DECOMP. On a legal shape the three registers hold `g`, `COUNT` and `RS` without truncation. -/
def Obligations.DecompStoresDecomposition : Prop :=
  ∀ s : State, s.status.callOpen = true →
    ∃ g count rs : Word,
      exec .decomp s = .next { s with
        book := { s.book with decG := g, decCount := count, decRstride := rs }
        status := { s.status with decValid := true }
        resultLo := 0, resultHi := 0, cause := 0, causeInfo := 0 } ∧
      (ShapeLegal s.cfg →
        g.toInt = Int.gcd s.cfg.axes.dA s.cfg.axes.sA ∧
        count.toInt = s.cfg.axes.dA / Int.gcd s.cfg.axes.dA s.cfg.axes.sA ∧
        rs.toInt = s.cfg.axes.sA / Int.gcd s.cfg.axes.dA s.cfg.axes.sA)

/-- R331, R332: the bounds of the decomposition, and the lattice identity. -/
def Obligations.DecompositionLattice : Prop :=
  ∀ c : Cfg, ShapeLegal c →
    c.axes.commonDivisor * c.axes.classCount = c.axes.dA ∧
    c.axes.commonDivisor * c.axes.reducedStride = c.axes.sA ∧
    1 ≤ c.axes.reducedStride ∧ c.axes.reducedStride ≤ c.axes.sA ∧
    1 ≤ c.axes.classCount ∧ c.axes.classCount ≤ c.axes.dA ∧
    (c.axes.dA = 1 → c.axes.commonDivisor = 1 ∧ c.axes.classCount = 1 ∧
      c.axes.reducedStride = c.axes.sA) ∧
    ∀ r j ta : Int,
      c.axes.entryCoord r (j * c.axes.reducedStride + ta) =
        (j * c.axes.classCount + r) * c.axes.sA + ta * c.axes.dA - c.axes.pA

/-- R333: the classes partition the outputs, the last output of a class reads the last entry it
consumes, and `LEAD(r)` counts the leading entries before the tensor. -/
def Obligations.ClassesPartitionOutputs : Prop :=
  ∀ c : Cfg, ShapeLegal c →
    (∀ o : Int, 0 ≤ o → o < c.axes.outA →
      ∃! rj : Int × Int, (0 ≤ rj.1 ∧ rj.1 < c.axes.classCount) ∧
        (0 ≤ rj.2 ∧ rj.2 < c.axes.subOutputs rj.1) ∧ o = rj.2 * c.axes.classCount + rj.1) ∧
    (∑ r ∈ Finset.range c.axes.classCount.toNat, c.axes.subOutputs r) = c.axes.outA ∧
    ∀ r : Int, 0 ≤ r → r < c.axes.classCount →
      (∀ j ta : Int, 0 ≤ j → j < c.axes.subOutputs r → 0 ≤ ta → ta < c.axes.kA →
        0 ≤ j * c.axes.reducedStride + ta ∧ j * c.axes.reducedStride + ta < c.axes.subEntries r) ∧
      ∀ n : Int, 0 ≤ n → n < c.axes.subEntries r →
        (n < c.axes.subLead r ↔ c.axes.entryCoord r n < 0)

/-! ## The circular buffer -/

/-- R192: CB_INIT, every register it writes and its frame; under the invariant every element of every
slot then holds `PV`. -/
def Obligations.CbInitPrimesRing : Prop :=
  ∀ s : State, s.status.callOpen = true → s.status.decValid = true →
    0 ≤ s.ctx.ic.toInt → s.ctx.ic.toInt < s.cfg.inC.toInt →
    0 ≤ s.ctx.res.toInt → s.ctx.res.toInt < s.book.decCount.toInt →
    ∃ m : Memory,
      exec .cbInit s = .next { s with
        mem := m
        book := { s.book with
          cbCursor := 0, cbValid := 0, cbFed := 0, feedAdd := 0, feedReal := 0
          subNout := BitVec.ofInt 32 (s.cfg.axes.subOutputs s.ctx.res.toInt)
          subLead := BitVec.ofInt 32 (s.cfg.axes.subLead s.ctx.res.toInt)
          subNent := BitVec.ofInt 32 (s.cfg.axes.subEntries s.ctx.res.toInt) }
        status := { s.status with cbState := .primed, accValid := false }
        resultLo := 0, resultHi := 0, cause := 0, causeInfo := 0 } ∧
      (∀ a, storesCover (cbInitStores s) a = false → m.read a = s.mem.read a) ∧
      (Inv s → ∀ k u : Int, 0 ≤ k → k < s.cfg.ringCapacity s.params →
        0 ≤ u → u < s.cfg.entryBytes / s.cfg.precision.esIn →
        m.load (s.slotByte k (u * s.cfg.precision.esIn)) s.cfg.precision.tIn = s.cfg.padIn)

/-- R194: CB_FEED n, every register it writes and its frame. -/
def Obligations.CbFeedCompletes : Prop :=
  ∀ (s : State) (n : Nat), s.status.callOpen = true → s.status.cbState ≠ .uninitialized →
    1 ≤ n → n ≤ s.params.rIter → 0 ≤ s.ctx.j0.toInt → s.ctx.j0.toInt + n ≤ s.book.subNout.toInt →
    ∀ start need toAdd fed newStart : Int,
      start = s.ctx.j0.toInt * s.book.decRstride.toInt →
      need = s.cfg.axes.kA + (n - 1) * s.book.decRstride.toInt →
      toAdd = max 0 (start + need - s.book.cbFed.toInt) →
      fed = s.book.cbFed.toInt + toAdd →
      newStart = max (max start (s.book.cbFed.toInt - s.book.cbValid.toInt))
        (fed - s.book.cbCap.toInt) →
      ∃ m : Memory,
        exec (.cbFeed n) s = .next { s with
          mem := m
          book := { s.book with
            cbCursor := BitVec.ofInt 32 ((s.book.cbCursor.toInt + toAdd) % s.book.cbCap.toInt)
            cbFed := BitVec.ofInt 32 fed
            cbValid := BitVec.ofInt 32 (fed - newStart)
            feedAdd := BitVec.ofInt 32 toAdd
            feedReal := BitVec.ofNat 32 ((List.range toAdd.toNat).countP fun i : Nat =>
              decide (0 ≤ s.cfg.axes.entryCoord s.ctx.res.toInt (s.book.cbFed.toInt + i)) &&
                decide (s.cfg.axes.entryCoord s.ctx.res.toInt (s.book.cbFed.toInt + i) <
                  s.cfg.axes.inA)) }
          status := { s.status with cbState := .streaming, accValid := false }
          resultLo := 0, resultHi := 0, cause := 0, causeInfo := 0 } ∧
        ∀ a, storesCover (cbFeedStores n s) a = false → m.read a = s.mem.read a

/-- R197: whatever the host does next, every resident entry stays in slot `nn mod CAP` with the contents
of R195. -/
def Obligations.StepKeepsRingContents : Prop :=
  ∀ s t : State, Inv s → (s.status.cbState ≠ .uninitialized → RingHolds s) → step s = .next t →
    (t.status.cbState ≠ .uninitialized → RingHolds t)

/-- R203: after a CB_FEED n whose tile starts no earlier than the oldest resident entry, every entry the
tile reads is resident and holds the row of the materialised padded array. (A tile before that entry is
R194's corner case "moved backward below old_start"; log 19.) -/
def Obligations.PaddingCorrectness : Prop :=
  ∀ (s t : State) (n : Nat), Inv s → (s.status.cbState ≠ .uninitialized → RingHolds s) →
    exec (.cbFeed n) s = .next t → t.cause = 0 → s.oldestEntry ≤ s.tileStart →
    ∀ k ta : Int, 0 ≤ k → k < n → 0 ≤ ta → ta < s.cfg.axes.kA →
      t.oldestEntry ≤ (s.ctx.j0.toInt + k) * s.cfg.axes.reducedStride + ta ∧
      (s.ctx.j0.toInt + k) * s.cfg.axes.reducedStride + ta < t.book.cbFed.toInt ∧
      ∀ u : Int, 0 ≤ u → u < s.cfg.axes.line →
        t.windowSample ((s.ctx.j0.toInt + k) * s.cfg.axes.reducedStride + ta) u =
          ringSample s.cfg s.mem s.ctx.ic.toInt
            (s.cfg.axes.entryCoord s.ctx.res.toInt
              ((s.ctx.j0.toInt + k) * s.cfg.axes.reducedStride + ta)) u

/-- R199, R68: the ring is large enough for any tile, and an append never lands on an entry the tile
needs. -/
def Obligations.RingNeverOverwritesTile : Prop :=
  ∀ (p : Config.Params) (c : Cfg) (n j0 : Int), p.ok = true → ShapeLegal c → 1 ≤ n → n ≤ p.rIter →
    c.axes.kA + (n - 1) * c.axes.reducedStride ≤ c.ringCapacity p ∧
    c.axes.dkeA + c.axes.sA ≤ c.ringCapacity p ∧
    ∀ nn : Int,
      nn ≤ j0 * c.axes.reducedStride + (c.axes.kA + (n - 1) * c.axes.reducedStride) - 1 →
      nn - c.ringCapacity p < j0 * c.axes.reducedStride

/-- R201, R53, R252: the address of sample u of the i-th valid entry computed from the window registers
with one wrap is the address of that entry's slot. -/
def Obligations.WindowWrapAddressing : Prop :=
  ∀ (s : State) (i u : Int), Inv s → s.status.cbState ≠ .uninitialized →
    0 ≤ i → i < s.book.cbValid.toInt → 0 ≤ u → u < s.cfg.axes.line →
    ∀ p : Int,
      p = (s.readReg 0x47).toNat + ((s.readReg 0x46).toNat + i) * (s.readReg 0x44).toNat +
        u * s.cfg.precision.esIn →
      (if ((s.readReg 0x48).toNat : Int) ≤ p then p - ((s.readReg 0x48).toNat - (s.readReg 0x47).toNat)
        else p) =
        s.slotByte ((s.oldestEntry + i) % s.book.cbCap.toInt) (u * s.cfg.precision.esIn)

/-! ## The kernel stager -/

/-- R231: KS_CLEAR, the flags it writes and its frame; under the invariant every staging position, the tap
positions included, then holds `PK` and every byte of the alignment fill is 0. -/
def Obligations.KsClearCompletes : Prop :=
  ∀ s : State, s.status.callOpen = true →
    ∃ m : Memory,
      exec .ksClear s = .next { s with
        mem := m
        status := { s.status with kpadValid := true, ksValid := false, accValid := false }
        resultLo := 0, resultHi := 0, cause := 0, causeInfo := 0 } ∧
      (∀ a, storesCover (ksClearStores s) a = false → m.read a = s.mem.read a) ∧
      (Inv s →
        (∀ ta p : Int, 0 ≤ ta → ta < s.cfg.axes.kA → 0 ≤ p → p < s.cfg.kernelLine s.params →
          m.load (s.stagedAddr ta p) s.cfg.precision.tK = s.cfg.padKer) ∧
        ∀ b : Int, s.cfg.axes.kA * s.cfg.kernelLine s.params * s.cfg.precision.esK ≤ b →
          b < s.cfg.stagingBytes s.params →
          m.read (ptrPlus s.cfg.scratchPtr (s.cfg.offKs s.params + b)) = 0)

/-- R232: KSTAGE, the flags it writes and its frame. -/
def Obligations.KstageCompletes : Prop :=
  ∀ s : State, s.status.callOpen = true → s.status.kpadValid = true →
    0 ≤ s.ctx.ic.toInt → s.ctx.ic.toInt < s.cfg.inC.toInt →
    0 ≤ s.ctx.m.toInt → s.ctx.m.toInt < s.cfg.chMult.toInt →
    ∃ m : Memory,
      exec .kstage s = .next { s with
        mem := m
        status := { s.status with ksValid := true, accValid := false }
        resultLo := 0, resultHi := 0, cause := 0, causeInfo := 0 } ∧
      ∀ a, storesCover (kstageStores s) a = false → m.read a = s.mem.read a

/-- R233: while KPAD_VALID every staging position without a tap holds `PK`, and while KS_VALID every tap
position holds its tap of the filter of (`CTX_IC`, `CTX_M`), whatever the host does next. -/
def Obligations.StepKeepsStagedKernel : Prop :=
  ∀ s t : State, Inv s → (s.status.kpadValid = true → StagingPadHolds s) →
    (s.status.ksValid = true → StagingHolds s) → step s = .next t →
      (t.status.kpadValid = true → StagingPadHolds t) ∧ (t.status.ksValid = true → StagingHolds t)

/-! ## The compute loop -/

/-- R250: MAC_TILE n when the window test passes: every register it writes and its frame. R254: ACC_OVF
is set when the bias add of some output leaves the 64-bit range, which only S8S16 can. -/
def Obligations.MacTileCompletes : Prop :=
  ∀ (s : State) (n : Nat), s.status.callOpen = true → s.status.cbState ≠ .uninitialized →
    s.status.ksValid = true → 1 ≤ n → n ≤ s.params.rIter →
    0 ≤ s.ctx.j0.toInt → s.ctx.j0.toInt + n ≤ s.book.subNout.toInt →
    s.book.cbFed.toInt - s.book.cbValid.toInt ≤ s.ctx.j0.toInt * s.book.decRstride.toInt →
    s.ctx.j0.toInt * s.book.decRstride.toInt +
      (s.cfg.axes.kA + (n - 1) * s.book.decRstride.toInt) ≤ s.book.cbFed.toInt →
    ∃ (m : Memory) (ovf : Bool),
      exec (.macTile n) s = .next { s with
        mem := m
        book := { s.book with accJ0 := s.ctx.j0, accN := BitVec.ofNat 32 n }
        status := { s.status with accValid := true, accOvf := s.status.accOvf || ovf }
        resultLo := 0, resultHi := 0, cause := 0, causeInfo := 0 } ∧
      (ovf = true ↔ s.cfg.precision = .s8s16 ∧ ∃ t w : Nat, t < n ∧ (w : Int) < s.cfg.axes.outC ∧
        (s.tapSum t w + s.tileBias < -(2 ^ 63) ∨ 2 ^ 63 ≤ s.tapSum t w + s.tileBias)) ∧
      ∀ a, storesCover (macTileStores n s) a = false → m.read a = s.mem.read a

/-- R251: the early return of MAC_TILE. Not a completion: where the tile's window is not resident. -/
def Obligations.MacTileEarlyReturn : Prop :=
  ∀ (s : State) (n : Nat), s.status.callOpen = true → s.status.cbState ≠ .uninitialized →
    s.status.ksValid = true → 1 ≤ n → n ≤ s.params.rIter →
    0 ≤ s.ctx.j0.toInt → s.ctx.j0.toInt + n ≤ s.book.subNout.toInt →
    ∀ start need : Int,
      start = s.ctx.j0.toInt * s.book.decRstride.toInt →
      need = s.cfg.axes.kA + (n - 1) * s.book.decRstride.toInt →
      ¬(s.book.cbFed.toInt - s.book.cbValid.toInt ≤ start ∧ start + need ≤ s.book.cbFed.toInt) →
      exec (.macTile n) s = .next { s with
        resultLo := 0xFFFFFFFF, resultHi := 0xFFFFFFFF, cause := 19
        causeInfo := if start < s.book.cbFed.toInt - s.book.cbValid.toInt then 1 else 2
        status := { s.status with accValid := false, underrun := true, err := true } }

/-- R250, R257: after a MAC_TILE n the accumulator file holds, at entry t × O_c + w, the tap sum with the
bias added. -/
def Obligations.MacTileStoresAccumulators : Prop :=
  ∀ (s r : State) (n : Nat), Inv s → exec (.macTile n) s = .next r → r.cause = 0 →
    ∀ t w : Nat, t < n → (w : Int) < s.cfg.axes.outC →
      r.loadAcc (t * s.cfg.axes.outC + w) = addBias s.cfg (s.tapSum t w) s.tileBias

/-- R254: before the bias an integer accumulator is below 2^61 in magnitude, and but for S8S16 the biased
one fits in 64 bits. -/
def Obligations.AccumulatorRange : Prop :=
  ∀ (s : State) (t w : Int), Inv s → s.status.callOpen = true → s.cfg.precision ≠ .f32 →
    |s.tapSum t w| < 2 ^ 61 ∧
    (s.cfg.precision ≠ .s8s16 →
      -(2 ^ 63) ≤ biasedSum s.cfg (s.tapSum t w) s.tileBias ∧
        biasedSum s.cfg (s.tapSum t w) s.tileBias < 2 ^ 63)

/-- R359, R355, R253: the accumulators of a tile are those of the reference function at the outputs the
tile covers: ring-axis coordinate `(j0 + t) × COUNT + r`, cross-axis coordinate w. -/
def Obligations.MacTileComputesReference : Prop :=
  ∀ (s r : State) (n : Nat), Inv s → RingHolds s → StagingHolds s →
    exec (.macTile n) s = .next r → r.cause = 0 →
    ∀ t w : Nat, t < n → (w : Int) < s.cfg.axes.outC →
      r.loadAcc (t * s.cfg.axes.outC + w) =
        addBias s.cfg
          (refSum s.cfg s.mem s.contextChannel
            (s.cfg.outputRow ((s.ctx.j0.toInt + t) * s.cfg.axes.classCount + s.ctx.res.toInt) w)
            (s.cfg.outputColumn ((s.ctx.j0.toInt + t) * s.cfg.axes.classCount + s.ctx.res.toInt) w))
          (biasElem s.cfg s.mem s.contextChannel)

/-! ## The requantization unit -/

/-- R280: REQ_WRITE, the flag it writes and its frame. -/
def Obligations.ReqWriteCompletes : Prop :=
  ∀ s : State, s.status.callOpen = true → s.status.accValid = true →
    ∃ m : Memory,
      exec .reqWrite s = .next { s with
        mem := m
        status := { s.status with accValid := false }
        resultLo := 0, resultHi := 0, cause := 0, causeInfo := 0 } ∧
      ∀ a, storesCover (reqWriteStores s) a = false → m.read a = s.mem.read a

/-- R280, R335: REQ_WRITE writes `FINISH` of accumulator t × O_c + w at ring-axis coordinate
`(j0 + t) × COUNT + r` and cross-axis coordinate w. -/
def Obligations.ReqWriteStoresOutputs : Prop :=
  ∀ s r : State, Inv s → exec .reqWrite s = .next r → r.cause = 0 →
    ∀ t w : Nat, (t : Int) < s.book.accN.toInt → (w : Int) < s.cfg.axes.outC →
      r.mem.load
          (s.cfg.outputAddrAc s.contextChannel
            ((s.book.accJ0.toInt + t) * s.cfg.axes.classCount + s.ctx.res.toInt) w)
          s.cfg.precision.tOut =
        finishAcc s.cfg s.mem s.contextChannel (s.loadAcc (t * s.cfg.axes.outC + w))

/-- R282: the result of `FINISH` is in range(T_out) for the integer precisions. -/
def Obligations.FinishInRange : Prop :=
  ∀ (c : Cfg) (m : Memory) (oc acc : Int), checkArgs c = none → c.precision ≠ .f32 →
    c.precision.tOut.holds (finishAcc c m oc acc)

/-- R13, R287: `rha` rounds to a nearest integer, ties away from zero, and is an exact left shift for a
non-positive shift; `reduce15` rounds the multiplier to 16 bits, saturated. -/
def Obligations.RoundingPrimitives : Prop :=
  (∀ v s : Int, 1 ≤ s →
    2 * |rha v s * 2 ^ s.toNat - v| ≤ 2 ^ s.toNat ∧
    (2 * |rha v s * 2 ^ s.toNat - v| = 2 ^ s.toNat → |v| < |rha v s * 2 ^ s.toNat|) ∧
    rha (-v) s = -rha v s) ∧
  (∀ v s : Int, s ≤ 0 → rha v s = v * 2 ^ (-s).toNat) ∧
  ∀ m : Int, -(2 ^ 31) ≤ m → m < 2 ^ 31 →
    -(2 ^ 15) ≤ reduce15 m ∧ reduce15 m < 2 ^ 15 ∧
    (0x7FFF0000 ≤ m → reduce15 m = 0x7FFF) ∧
    (m < 0x7FFF0000 → -(2 ^ 15) < reduce15 m * 2 ^ 16 - m ∧ reduce15 m * 2 ^ 16 - m ≤ 2 ^ 15)

/-- R290: the per-channel requantization is within half an output step where it does not saturate, and
saturates where it must. All sides are multiplied by 2^(31 - SHIFT). -/
def Obligations.RequantizeRoundTrip : Prop :=
  ∀ (c : Cfg) (x mult shift y : Int), c.precision = .pc8 → -31 ≤ shift → shift ≤ 31 →
    c.outMin.toInt ≤ c.outMax.toInt → y = finishWith c x mult shift →
    (c.outMin.toInt < y → y < c.outMax.toInt →
      2 * |(y - c.outZp.toInt) * 2 ^ (31 - shift).toNat - x * mult| ≤ 2 ^ (31 - shift).toNat) ∧
    (c.outMax.toInt * 2 ^ (31 - shift).toNat ≤ x * mult + c.outZp.toInt * 2 ^ (31 - shift).toNat →
      y = c.outMax.toInt) ∧
    (x * mult + c.outZp.toInt * 2 ^ (31 - shift).toNat ≤ c.outMin.toInt * 2 ^ (31 - shift).toNat →
      y = c.outMin.toInt)

/-- R300: the exact product and the exact sum of two finite patterns, each rounded once to nearest, ties
to even, subnormals kept, overflow to the signed infinity. -/
def Obligations.FloatRoundsToNearest : Prop :=
  ∀ a b : Word, F32.isFinite a = true → F32.isFinite b = true →
    F32.RoundsTo (F32.value a * F32.value b) (F32.mul a b) ∧
    F32.RoundsTo (F32.value a + F32.value b) (F32.add a b)

/-- R300: NaN operands and invalid operations give 0x7FC00000; infinities; the sign of every finite product,
one that underflows to zero too; the sum of two zeros is -0 only for (-0) + (-0); x + (-x) is +0; both
operations are commutative. -/
def Obligations.FloatSpecialValues : Prop :=
  ∀ a b : Word,
    (F32.isNaN a = true ∨ F32.isNaN b = true →
      F32.mul a b = 0x7FC00000 ∧ F32.add a b = 0x7FC00000) ∧
    (F32.isInf a = true → F32.mant b = 0 → F32.mul a b = 0x7FC00000) ∧
    (F32.isInf a = true → F32.isInf b = true → F32.neg a ≠ F32.neg b →
      F32.add a b = 0x7FC00000) ∧
    (F32.isInf a = true → F32.isNaN b = false → (F32.isInf b = true → F32.neg b = F32.neg a) →
      F32.add a b = a) ∧
    (F32.isInf a = true → F32.isNaN b = false → F32.mant b ≠ 0 →
      F32.mul a b = F32.infinity (F32.neg a != F32.neg b)) ∧
    (F32.isFinite a = true → F32.isFinite b = true → F32.mant b = 0 →
      F32.mul a b = F32.pack (F32.neg a != F32.neg b) 0) ∧
    (F32.isFinite a = true → F32.isFinite b = true → F32.neg (F32.mul a b) = (F32.neg a != F32.neg b)) ∧
    (F32.isFinite a = true → F32.add a (a ^^^ 0x80000000) = 0) ∧
    (F32.mant a = 0 → F32.mant b = 0 → F32.add a b = F32.pack (F32.neg a && F32.neg b) 0) ∧
    F32.mul a b = F32.mul b a ∧ F32.add a b = F32.add b a

/-! ## The whole machine -/

/-- The invariant holds after reset (R79). -/
def Obligations.ResetMeetsInvariant : Prop := Inv State.reset

/-- R362, R77, R55, R50 to R54, R197: the validity flags stay ordered, and what each of them promises
about the registers stays true, whatever the host does next. -/
def Obligations.StepKeepsInvariant : Prop :=
  ∀ s t : State, Inv s → step s = .next t → Inv t

/-- The memory keeps its canonical form (20_memory.md R100, the model's representation, log 2). -/
def Obligations.StepKeepsMemoryCanonical : Prop :=
  ∀ s t : State, s.mem.wf = true → step s = .next t → t.mem.wf = true

/-- R115, R114: no command writes a byte outside its own footprint: never the input, kernel, bias,
multiplier or shift regions, never the state header. -/
def Obligations.CommandFootprint : Prop :=
  ∀ (i : Instr) (s t : State), Inv s → exec i s = .next t →
    ∀ a, commandWrites i s.params s.cfg a = false → t.mem.read a = s.mem.read a

/-- R356, R361, R400: CONV on a legal configuration whose shift array is in range ends with success, the call
closed; ERR and UNDERRUN stay, and ACC_OVF is added if the bias add of some output leaves 64 bits (R254). Every
context and bookkeeping register holds what the pseudocode last wrote: `last` is the last residue class, whose
tiles start at multiples of `R_ITER` up to `start`, and which has none when there are fewer outputs than classes
(then the tile last computed is one of class `O_a - 1`); `before` entries were fed before the last tile. -/
def Obligations.ConvCompletes : Prop :=
  ∀ s : State, s.params.ok = true → ConfigLegal s.params s.cfg → checkShiftArray s.cfg s.mem = none →
    ∃ (t : State) (ovf : Bool), exec .conv s = .next t ∧
      t.resultLo = 0 ∧ t.resultHi = 0 ∧ t.cause = 0 ∧ t.causeInfo = 0 ∧
      t.status = { s.status with
        callOpen := false, decValid := false, kpadValid := false, ksValid := false, accValid := false
        cbState := .uninitialized, accOvf := s.status.accOvf || ovf } ∧
      (ovf = true ↔ s.cfg.precision = .s8s16 ∧ ∃ oc oy ox : Int,
        (0 ≤ oc ∧ oc < s.cfg.outChannels) ∧ (0 ≤ oy ∧ oy < s.cfg.outH.toInt) ∧
        (0 ≤ ox ∧ ox < s.cfg.outW.toInt) ∧
        (refSum s.cfg s.mem oc oy ox + biasElem s.cfg s.mem oc < -(2 ^ 63) ∨
          2 ^ 63 ≤ refSum s.cfg s.mem oc oy ox + biasElem s.cfg s.mem oc)) ∧
      KeepsSetup s t ∧
      ∀ x last computed start accStart before entries : Int,
        x = s.params.rIter →
        last = s.cfg.axes.classCount - 1 →
        computed = min s.cfg.axes.classCount s.cfg.axes.outA - 1 →
        start = max 0 ((s.cfg.axes.subOutputs last - 1) / x) * x →
        accStart = (s.cfg.axes.subOutputs computed - 1) / x * x →
        before = (if start = 0 then 0 else (start - 1) * s.cfg.axes.reducedStride + s.cfg.axes.kA) →
        entries = s.cfg.axes.subEntries last →
        t.ctx = {
          ic := BitVec.ofInt 32 (s.cfg.inC.toInt - 1), m := BitVec.ofInt 32 (s.cfg.chMult.toInt - 1)
          res := BitVec.ofInt 32 last, j0 := BitVec.ofInt 32 start } ∧
        t.book = {
          decG := BitVec.ofInt 32 s.cfg.axes.commonDivisor
          decCount := BitVec.ofInt 32 s.cfg.axes.classCount
          decRstride := BitVec.ofInt 32 s.cfg.axes.reducedStride
          subNout := BitVec.ofInt 32 (s.cfg.axes.subOutputs last)
          subLead := BitVec.ofInt 32 (s.cfg.axes.subLead last)
          subNent := BitVec.ofInt 32 entries
          cbCap := BitVec.ofInt 32 (s.cfg.ringCapacity s.params)
          cbCursor := BitVec.ofInt 32 (entries % s.cfg.ringCapacity s.params)
          cbValid := BitVec.ofInt 32 (entries - start * s.cfg.axes.reducedStride)
          cbFed := BitVec.ofInt 32 entries
          cbEntryBytes := BitVec.ofInt 32 s.cfg.entryBytes
          cbLine := BitVec.ofInt 32 s.cfg.axes.line
          feedAdd := BitVec.ofInt 32 (entries - before)
          feedReal := BitVec.ofNat 32 ((List.range (entries - before).toNat).countP fun i : Nat =>
            decide (0 ≤ s.cfg.axes.entryCoord last (before + i)) &&
              decide (s.cfg.axes.entryCoord last (before + i) < s.cfg.axes.inA))
          accJ0 := BitVec.ofInt 32 accStart
          accN := BitVec.ofInt 32 (s.cfg.axes.subOutputs computed - accStart)
          layCb := BitVec.ofInt 32 s.params.hdrBytes
          layKs := BitVec.ofInt 32 (s.cfg.offKs s.params)
          layAcc := BitVec.ofInt 32 (s.cfg.offAcc s.params)
          layTotal := BitVec.ofInt 32 (s.cfg.scratchTotal s.params)
          layKcpad := BitVec.ofInt 32 (s.cfg.kernelLine s.params) }

/-- R357: after a CONV that ended with `done(0)` every output element holds `REF`, and every byte outside
the output tensor and the scratch region, and the scratch header, is unchanged. -/
def Obligations.ConvComputesReference : Prop :=
  ∀ s t : State, s.params.ok = true → exec .conv s = .next t → t.cause = 0 →
    (∀ oc oy ox : Int, 0 ≤ oc → oc < s.cfg.outChannels → 0 ≤ oy → oy < s.cfg.outH.toInt →
      0 ≤ ox → ox < s.cfg.outW.toInt →
      t.mem.load (s.cfg.outputAddr oc oy ox) s.cfg.precision.tOut = refOut s.cfg s.mem oc oy ox) ∧
    ∀ a, writableByCall s.params s.cfg a = false → t.mem.read a = s.mem.read a

/-- R358: `REF` does not depend on LAYOUT but through the address functions. -/
def Obligations.LayoutEquivalence : Prop :=
  ∀ (c c' : Cfg) (m m' : Memory), ShapeLegal c → c' = { c with layout := c'.layout } →
    (∀ ic y x : Int, 0 ≤ ic → ic < c.inC.toInt → 0 ≤ y → y < c.inH.toInt → 0 ≤ x → x < c.inW.toInt →
      m'.load (c'.inputAddr ic y x) c.precision.tIn = m.load (c.inputAddr ic y x) c.precision.tIn) →
    (∀ oc ky kx : Int, 0 ≤ oc → oc < c.outChannels → 0 ≤ ky → ky < c.kH.toInt → 0 ≤ kx →
      kx < c.kW.toInt →
      m'.load (c'.kernelAddr oc ky kx) c.precision.tK = m.load (c.kernelAddr oc ky kx) c.precision.tK) →
    (∀ oc : Int, 0 ≤ oc → oc < c.outChannels →
      biasElem c' m' oc = biasElem c m oc ∧
        (c.precision.perChannel = true →
          multElem c' m' oc = multElem c m oc ∧ shiftElem c' m' oc = shiftElem c m oc)) →
    ∀ oc oy ox : Int, 0 ≤ oc → oc < c.outChannels → 0 ≤ oy → oy < c.outH.toInt →
      0 ≤ ox → ox < c.outW.toInt → refOut c' m' oc oy ox = refOut c m oc oy ox
end

