-- ==== Sys2Proof/Laws/Checks.lean ====
section
/-! SUPPORT. What it means that a check passes, and what a legal configuration gives. -/

namespace Sys2Proof.Machine

@[simp] theorem require_eq_none (b : Bool) (c : Cause) (i : Nat) : require b c i = none ↔ b = true := by
  cases b <;> simp [require]

theorem require_eq_some {b : Bool} {c : Cause} {i : Nat} {e : CmdError} (h : require b c i = some e) :
    b = false ∧ e = { cause := c, info := i } := by
  cases b <;> simp_all [require]

theorem firstFailure_eq_none (l : List (Option CmdError)) :
    firstFailure l = none ↔ ∀ e ∈ l, e = none := by
  induction l with
  | nil => simp [firstFailure]
  | cons h t ih => cases h <;> simp [firstFailure, ih]

/-- A check of a decidable test, as the test. -/
theorem require_decide (p : Prop) [Decidable p] (c : Cause) (i : Nat) :
    require (decide p) c i = if p then none else some { cause := c, info := i } := by
  by_cases h : p <;> simp [require, h]

/-- The range check of a register, as the range (46_conv_sequencer.md R352). -/
theorem requireRange_eq (w : Word) (lo hi : Int) (c : Cause) (i : Nat) :
    requireRange w lo hi c i =
      if lo ≤ w.toInt ∧ w.toInt ≤ hi then none else some { cause := c, info := i } := by
  rw [requireRange, ← Bool.decide_and, require_decide]

/-- A list of checks as a chain of tests: the first check that fails is the answer (60_exceptions.md R394). -/
theorem firstFailure_ite (p : Prop) [Decidable p] (e : CmdError) (t : List (Option CmdError)) :
    firstFailure ((if p then none else some e) :: t) = if p then firstFailure t else some e := by
  by_cases h : p <;> simp [h, firstFailure]

/-- A command with preconditions ends in one of two ways (60_exceptions.md R390). -/
theorem runCommand_cases {pre : Option CmdError} {effect : State → State} {s t : State}
    (h : runCommand pre effect s = .next t) :
    (∃ e, pre = some e ∧ t = s.raiseErr e) ∨ (pre = none ∧ t = (effect s).finish 0) := by
  cases pre with
  | some e => exact .inl ⟨e, rfl, by simpa [runCommand] using h.symm⟩
  | none => exact .inr ⟨rfl, by simpa [runCommand] using h.symm⟩

theorem runCommand_none (effect : State → State) (s : State) :
    runCommand none effect s = .next ((effect s).finish 0) := rfl

theorem runCommand_some (e : CmdError) (effect : State → State) (s : State) :
    runCommand (some e) effect s = .next (s.raiseErr e) := rfl

/-- BEGIN and CONV end in one of three ways (46_conv_sequencer.md R351, R356). -/
theorem startCall_cases (go : State → State) (s : State) :
    (∃ e, callVerdict s.params s.cfg s.mem = .reject e ∧
      startCall go s = .next (s.close.raiseErr e)) ∨
    (∃ r, callVerdict s.params s.cfg s.mem = .breach r ∧ startCall go s = .refused r) ∨
    (callVerdict s.params s.cfg s.mem = .accept ∧
      startCall go s = .next ((go (openCall s.close)).finish 0)) := by
  unfold startCall
  cases h : callVerdict s.params s.cfg s.mem <;> simp

theorem precisionOfTag_isSome (t : Int) : (precisionOfTag t).isSome = true ↔ 0 ≤ t ∧ t ≤ 5 := by
  unfold precisionOfTag
  repeat' split
  all_goals simp
  all_goals omega

/-- `CheckShape()` passes exactly on the legal shapes (40_planner.md R172). -/
theorem checkShape_eq_none (c : Cfg) : checkShape c = none ↔ ShapeLegal c := by
  unfold checkShape
  rw [firstFailure_eq_none]
  simp only [List.mem_append, Cfg.sizeRegisters, List.map_cons, List.map_nil, List.mem_cons,
    List.not_mem_nil, or_false, forall_eq, or_imp, forall_and, require_eq_none,
    precisionOfTag_isSome, Bool.or_eq_true, decide_eq_true_eq]
  constructor
  · rintro ⟨⟨⟨h1, h2⟩, h3⟩, h4⟩
    exact ⟨h1, h2, by tauto, by tauto, by tauto, by tauto, by tauto, h4⟩
  · rintro ⟨h1, h2, h3, h4, h5, h6, h7, h8⟩
    tauto

/-- `CheckCapacity()` passes exactly when all sixteen quantities fit (40_planner.md R173). -/
theorem checkCapacity_eq_none (p : Config.Params) (c : Cfg) :
    checkCapacity p c = none ↔ ∀ k ∈ capacityQuantities p c, k.2 ≤ Config.countMax := by
  unfold checkCapacity
  rw [firstFailure_eq_none]
  constructor
  · intro h k hk
    simpa using h _ (List.mem_map_of_mem hk)
  · intro h e he
    obtain ⟨k, hk, rfl⟩ := List.mem_map.1 he
    simpa using h k hk

theorem callVerdict_accept {p : Config.Params} {c : Cfg} {m : Memory} :
    callVerdict p c m = .accept ↔ ConfigLegal p c ∧ checkShiftArray c m = none := by
  unfold callVerdict
  constructor
  · intro h
    split at h
    · simp at h
    · rename_i h1
      simp only [firstFailure_eq_none, List.mem_cons, List.not_mem_nil, or_false, forall_eq_or_imp,
        forall_eq] at h1
      repeat' split at h
      all_goals try simp at h
      rename_i h2 h3 h4 h5
      exact ⟨⟨h1.1, h1.2.1, h1.2.2, by simpa using h4, by simpa using h5⟩, h3⟩
  · rintro ⟨⟨h1, h2, h3, h4, h5⟩, h6⟩
    have hs : shiftArrayPlaced c = true := by
      unfold shiftArrayPlaced
      cases hp : c.precision.perChannel
      · rfl
      · simp only [Bool.not_true, Bool.false_or]
        simp only [Cfg.regionsPlaced, Cfg.regions, Cfg.readRegions, hp, if_true, List.all_cons,
          List.all_append, Bool.and_eq_true] at h4
        exact h4.2.2.2.2.1
    simp [h1, h2, h3, h4, h5, h6, hs, firstFailure]

/-! ### What it means that the preconditions of a command hold -/

@[simp] theorem needOpen_eq_none (st : Status) : needOpen st = none ↔ st.callOpen = true := by
  simp [needOpen]

@[simp] theorem needDecomposition_eq_none (st : Status) :
    needDecomposition st = none ↔ st.decValid = true := by
  simp [needDecomposition]

@[simp] theorem needRing_eq_none (st : Status) : needRing st = none ↔ st.cbState ≠ .uninitialized := by
  simp [needRing]

@[simp] theorem needKernelPadding_eq_none (st : Status) :
    needKernelPadding st = none ↔ st.kpadValid = true := by
  simp [needKernelPadding]

@[simp] theorem needStagedKernel_eq_none (st : Status) :
    needStagedKernel st = none ↔ st.ksValid = true := by
  simp [needStagedKernel]

@[simp] theorem needAccumulators_eq_none (st : Status) :
    needAccumulators st = none ↔ st.accValid = true := by
  simp [needAccumulators]

@[simp] theorem needChannel_eq_none (s : State) :
    needChannel s = none ↔ 0 ≤ s.ctx.ic.toInt ∧ s.ctx.ic.toInt < s.cfg.inC.toInt := by
  simp [needChannel]

@[simp] theorem needTileSize_eq_none (n : Nat) (s : State) :
    needTileSize n s = none ↔ 1 ≤ n ∧ n ≤ s.params.rIter := by
  simp [needTileSize]

@[simp] theorem needTilePlace_eq_none (n : Nat) (s : State) :
    needTilePlace n s = none ↔
      0 ≤ s.ctx.j0.toInt ∧ s.ctx.j0.toInt + n ≤ s.book.subNout.toInt := by
  simp [needTilePlace]

/-- The preconditions of CB_INIT (41_circular_buffer.md R192). -/
theorem cbInitPre_eq_none (s : State) :
    cbInitPre s = none ↔
      s.status.callOpen = true ∧ s.status.decValid = true ∧
        (0 ≤ s.ctx.ic.toInt ∧ s.ctx.ic.toInt < s.cfg.inC.toInt) ∧
        (0 ≤ s.ctx.res.toInt ∧ s.ctx.res.toInt < s.book.decCount.toInt) := by
  simp [cbInitPre, firstFailure_eq_none]

/-- The preconditions of CB_FEED (41_circular_buffer.md R194). -/
theorem cbFeedPre_eq_none (n : Nat) (s : State) :
    cbFeedPre n s = none ↔
      s.status.callOpen = true ∧ s.status.cbState ≠ .uninitialized ∧
        (1 ≤ n ∧ n ≤ s.params.rIter) ∧
        (0 ≤ s.ctx.j0.toInt ∧ s.ctx.j0.toInt + n ≤ s.book.subNout.toInt) := by
  simp [cbFeedPre, firstFailure_eq_none]

/-- The preconditions of KSTAGE (42_kernel_stager.md R232). -/
theorem kstagePre_eq_none (s : State) :
    kstagePre s = none ↔
      s.status.callOpen = true ∧ s.status.kpadValid = true ∧
        (0 ≤ s.ctx.ic.toInt ∧ s.ctx.ic.toInt < s.cfg.inC.toInt) ∧
        (0 ≤ s.ctx.m.toInt ∧ s.ctx.m.toInt < s.cfg.chMult.toInt) := by
  simp [kstagePre, firstFailure_eq_none]

/-- The preconditions of MAC_TILE but for the window test (43_compute_loop.md R250). -/
theorem macTilePre_eq_none (n : Nat) (s : State) :
    macTilePre n s = none ↔
      s.status.callOpen = true ∧ s.status.cbState ≠ .uninitialized ∧ s.status.ksValid = true ∧
        (1 ≤ n ∧ n ≤ s.params.rIter) ∧
        (0 ≤ s.ctx.j0.toInt ∧ s.ctx.j0.toInt + n ≤ s.book.subNout.toInt) := by
  simp [macTilePre, firstFailure_eq_none]

/-- The window test of MAC_TILE (43_compute_loop.md R251). -/
theorem windowMisses_eq_none (n : Nat) (s : State) :
    s.windowMisses n = none ↔
      s.oldestEntry ≤ s.tileStart ∧ s.tileStart + s.tileNeed n ≤ s.book.cbFed.toInt := by
  unfold State.windowMisses
  split
  · simp; omega
  · split <;> simp <;> omega

/-- The preconditions of REQ_WRITE (44_requantization.md R280). -/
theorem reqWritePre_eq_none (s : State) :
    reqWritePre s = none ↔ s.status.callOpen = true ∧ s.status.accValid = true := by
  simp [reqWritePre, firstFailure_eq_none]

/-- MAC_TILE ends in one of three ways (43_compute_loop.md R250, R251). -/
theorem execMacTile_cases {n : Nat} {s t : State} (h : execMacTile n s = .next t) :
    (∃ e, macTilePre n s = some e ∧ t = s.raiseErr e) ∨
    (∃ k, macTilePre n s = none ∧ s.windowMisses n = some k ∧ t = underrunReturn k s) ∨
    (macTilePre n s = none ∧ s.windowMisses n = none ∧ t = (computeTile n s).finish 0) := by
  unfold execMacTile at h
  split at h
  · rename_i e he
    cases h
    exact .inl ⟨e, he, rfl⟩
  · rename_i hp
    split at h
    · rename_i k hk
      cases h
      exact .inr (.inl ⟨k, hp, hk, rfl⟩)
    · rename_i hk
      cases h
      exact .inr (.inr ⟨hp, hk, rfl⟩)

end Sys2Proof.Machine
end

