-- ==== Sys2Proof/Laws/Memory.lean ====
section
/-! SUPPORT. What the memory operations can do: reads after writes, the frame of a list of stores, and
that every operation keeps the canonical form. -/

namespace Sys2Proof.Machine

variable {α : Type}

/-! ### Lists of (key, value) pairs -/

theorem lookupKey_putKey_same (k : Nat) (v : α) (l : List (Nat × α)) :
    lookupKey k (putKey k v l) = some v := by
  induction l with
  | nil => simp [putKey, lookupKey]
  | cons h t ih =>
    obtain ⟨a, w⟩ := h
    by_cases h1 : k < a
    · simp [putKey, lookupKey, h1]
    · by_cases h2 : k = a
      · simp [putKey, lookupKey, h2]
      · simp [putKey, lookupKey, h1, h2, ih]

theorem lookupKey_putKey_other {k x : Nat} (v : α) (l : List (Nat × α)) (h : x ≠ k) :
    lookupKey x (putKey k v l) = lookupKey x l := by
  induction l with
  | nil => simp [putKey, lookupKey, h]
  | cons hd t ih =>
    obtain ⟨a, w⟩ := hd
    by_cases h1 : k < a
    · simp [putKey, lookupKey, h1, h]
    · by_cases h2 : k = a
      · subst h2; simp [putKey, lookupKey, h]
      · simp [putKey, lookupKey, h1, h2, ih]

theorem lookupKey_dropKey_same (k : Nat) (l : List (Nat × α)) : lookupKey k (dropKey k l) = none := by
  induction l with
  | nil => rfl
  | cons hd t ih =>
    obtain ⟨a, w⟩ := hd
    by_cases h : k = a <;> simp [dropKey, lookupKey, h, ih]
    simpa [h] using ih

theorem lookupKey_dropKey_other {k x : Nat} (l : List (Nat × α)) (h : x ≠ k) :
    lookupKey x (dropKey k l) = lookupKey x l := by
  induction l with
  | nil => rfl
  | cons hd t ih =>
    obtain ⟨a, w⟩ := hd
    by_cases h1 : k = a
    · subst h1; simp [dropKey, lookupKey, h, ih]
    · simp [dropKey, lookupKey, h1, ih]

theorem keysRise_mono {lo lo' : Nat} (h : lo ≤ lo') {l : List (Nat × α)} (hl : keysRise lo' l = true) :
    keysRise lo l = true := by
  cases l with
  | nil => rfl
  | cons hd t =>
    simp only [keysRise, Bool.and_eq_true, decide_eq_true_eq] at hl ⊢
    exact ⟨⟨by omega, hl.1.2⟩, hl.2⟩

theorem keysRise_putKey {lo k : Nat} (v : α) {l : List (Nat × α)} (hl : keysRise lo l = true)
    (hlo : lo ≤ k) (hk : k < Config.addressSpace) : keysRise lo (putKey k v l) = true := by
  induction l generalizing lo with
  | nil => simp [putKey, keysRise, hlo, hk]
  | cons hd t ih =>
    obtain ⟨a, w⟩ := hd
    simp only [keysRise, Bool.and_eq_true, decide_eq_true_eq] at hl
    by_cases h1 : k < a
    · simp only [putKey, h1, if_true, keysRise, Bool.and_eq_true, decide_eq_true_eq]
      exact ⟨⟨hlo, hk⟩, ⟨by omega, hl.1.2⟩, hl.2⟩
    · by_cases h2 : k = a
      · subst h2
        simp only [putKey, lt_irrefl, if_false, if_true, keysRise, Bool.and_eq_true, decide_eq_true_eq]
        exact hl
      · simp only [putKey, h1, h2, if_false, keysRise, Bool.and_eq_true, decide_eq_true_eq]
        exact ⟨hl.1, ih hl.2 (by omega)⟩

theorem keysRise_dropKey {lo : Nat} (k : Nat) {l : List (Nat × α)} (hl : keysRise lo l = true) :
    keysRise lo (dropKey k l) = true := by
  induction l generalizing lo with
  | nil => rfl
  | cons hd t ih =>
    obtain ⟨a, w⟩ := hd
    simp only [keysRise, Bool.and_eq_true, decide_eq_true_eq] at hl
    by_cases h : k = a
    · simp only [dropKey, h, if_true]
      exact keysRise_mono (by omega) (h ▸ ih hl.2)
    · simp only [dropKey, h, if_false, keysRise, Bool.and_eq_true, decide_eq_true_eq]
      exact ⟨hl.1, ih hl.2⟩

theorem mem_putKey {k : Nat} {v : α} {l : List (Nat × α)} {x : Nat × α} (h : x ∈ putKey k v l) :
    x = (k, v) ∨ x ∈ l := by
  induction l with
  | nil => simpa [putKey] using h
  | cons hd t ih =>
    obtain ⟨a, w⟩ := hd
    by_cases h1 : k < a
    · simpa [putKey, h1] using h
    · by_cases h2 : k = a
      · simp [putKey, h2] at h; simp [h2]; tauto
      · simp [putKey, h1, h2] at h
        rcases h with h | h
        · simp [h]
        · rcases ih h with h | h <;> simp [h]

theorem mem_dropKey {k : Nat} {l : List (Nat × α)} {x : Nat × α} (h : x ∈ dropKey k l) :
    x ∈ l ∧ x.1 ≠ k := by
  induction l with
  | nil => simp [dropKey] at h
  | cons hd t ih =>
    obtain ⟨a, w⟩ := hd
    by_cases h1 : k = a
    · simp only [dropKey, h1, if_true] at h
      obtain ⟨h2, h3⟩ := ih (h1 ▸ h)
      exact ⟨List.mem_cons_of_mem _ h2, h3⟩
    · simp only [dropKey, h1, if_false, List.mem_cons] at h
      rcases h with h | h
      · subst h; exact ⟨List.mem_cons_self, fun e => h1 e.symm⟩
      · obtain ⟨h2, h3⟩ := ih h
        exact ⟨List.mem_cons_of_mem _ h2, h3⟩

/-! ### One byte -/

@[simp] theorem wrapAddr_lt (a : Nat) : wrapAddr a < Config.addressSpace :=
  Nat.mod_lt _ (by decide)

theorem wrapAddr_of_lt {a : Nat} (h : a < Config.addressSpace) : wrapAddr a = a := Nat.mod_eq_of_lt h

@[simp] theorem read_write_same (m : Memory) (a : Nat) (b : Byte) : (m.write a b).read a = b := by
  by_cases h : b = Memory.unlisted <;>
    simp [Memory.read, Memory.write, h, lookupKey_dropKey_same, lookupKey_putKey_same]

theorem read_write_other {m : Memory} {a x : Nat} {b : Byte} (h : x ≠ a) :
    (m.write a b).read x = m.read x := by
  by_cases hb : b = Memory.unlisted <;>
    simp [Memory.read, Memory.write, hb, lookupKey_dropKey_other _ h, lookupKey_putKey_other _ _ h]

@[simp] theorem read_forget_same (m : Memory) (d a : Nat) : (m.forget d a).read a = Config.freeByte d a := by
  simp [Memory.read, Memory.forget, lookupKey_dropKey_same, lookupKey_putKey_same]

theorem read_forget_other {m : Memory} {d a x : Nat} (h : x ≠ a) :
    (m.forget d a).read x = m.read x := by
  simp [Memory.read, Memory.forget, lookupKey_dropKey_other _ h, lookupKey_putKey_other _ _ h]

theorem wf_iff (m : Memory) :
    m.wf = true ↔ keysRise 0 m.cells = true ∧ keysRise 0 m.unspec = true ∧
      ∀ c ∈ m.cells, c.2 ≠ Memory.unlisted ∧ lookupKey c.1 m.unspec = none := by
  simp [Memory.wf, and_assoc]

theorem wf_empty : Memory.empty.wf = true := by decide

theorem wf_write {m : Memory} {a : Nat} (b : Byte) (hm : m.wf = true) (ha : a < Config.addressSpace) :
    (m.write a b).wf = true := by
  obtain ⟨h1, h2, h3⟩ := (wf_iff m).1 hm
  have drop : ∀ c : Host.Cell, c ∈ m.cells → c.1 ≠ a → lookupKey c.1 (dropKey a m.unspec) = none :=
    fun c hc ne => by rw [lookupKey_dropKey_other _ ne]; exact (h3 c hc).2
  rw [wf_iff]
  by_cases hb : b = Memory.unlisted
  · simp only [Memory.write, hb, if_true]
    refine ⟨keysRise_dropKey a h1, keysRise_dropKey a h2, fun c hc => ?_⟩
    obtain ⟨hc1, hc2⟩ := mem_dropKey hc
    exact ⟨(h3 c hc1).1, drop c hc1 hc2⟩
  · simp only [Memory.write, hb, if_false]
    refine ⟨keysRise_putKey b h1 (Nat.zero_le _) ha, keysRise_dropKey a h2, fun c hc => ?_⟩
    by_cases ne : c.1 = a
    · rw [ne]
      refine ⟨?_, lookupKey_dropKey_same _ _⟩
      rcases mem_putKey hc with rfl | hc
      · exact hb
      · exact (h3 c hc).1
    · rcases mem_putKey hc with rfl | hc
      · exact absurd rfl ne
      · exact ⟨(h3 c hc).1, drop c hc ne⟩

theorem wf_forget {m : Memory} {a : Nat} (d : Nat) (hm : m.wf = true) (ha : a < Config.addressSpace) :
    (m.forget d a).wf = true := by
  obtain ⟨h1, h2, h3⟩ := (wf_iff m).1 hm
  rw [wf_iff]
  refine ⟨keysRise_dropKey a h1, keysRise_putKey d h2 (Nat.zero_le _) ha, fun c hc => ?_⟩
  obtain ⟨hc1, hc2⟩ := mem_dropKey hc
  refine ⟨(h3 c hc1).1, ?_⟩
  simp only [Memory.forget]
  rw [lookupKey_putKey_other _ _ hc2]
  exact (h3 c hc1).2

/-! ### Little-endian elements -/

theorem wrapAddr_ne {a i j : Nat} (hi : i < Config.addressSpace) (hj : j < Config.addressSpace)
    (h : i ≠ j) : wrapAddr (a + i) ≠ wrapAddr (a + j) := by
  unfold wrapAddr Config.addressSpace at *
  omega

theorem read_writeLE_outside {m : Memory} {a n : Nat} {v : Int} {x : Nat}
    (h : ∀ i < n, x ≠ wrapAddr (a + i)) : (m.writeLE a n v).read x = m.read x := by
  induction n generalizing m a v with
  | zero => rfl
  | succ n ih =>
    rw [Memory.writeLE, ih, read_write_other (by simpa using h 0 (Nat.succ_pos n))]
    intro i hi
    simpa [Nat.add_assoc, Nat.add_comm 1 i] using h (i + 1) (by omega)

theorem read_writeLE_at {m : Memory} {a n : Nat} {v : Int} (hn : n ≤ Config.addressSpace) {i : Nat}
    (hi : i < n) : (m.writeLE a n v).read (wrapAddr (a + i)) = BitVec.ofInt 8 (v / 256 ^ i) := by
  induction n generalizing m a v i with
  | zero => omega
  | succ n ih =>
    rw [Memory.writeLE]
    cases i with
    | zero =>
      rw [read_writeLE_outside]
      · simp
      · intro j hj
        rw [show a + 1 + j = a + (j + 1) by omega]
        exact wrapAddr_ne (by omega) (by omega) (by omega)
    | succ i =>
      have := ih (m := m.write (wrapAddr a) (BitVec.ofInt 8 v)) (a := a + 1) (v := v / 256) (by omega)
        (i := i) (by omega)
      rw [show a + (i + 1) = a + 1 + i by omega, this, Int.ediv_ediv_of_nonneg (by norm_num), pow_succ,
        mul_comm]

theorem emod_mul_split (v : Int) {b : Int} (hb : 0 < b) :
    v % (256 * b) = v % 256 + 256 * (v / 256 % b) := by
  have h1 := Int.emod_nonneg v (b := 256) (by norm_num)
  have h2 := Int.emod_lt_of_pos v (b := 256) (by norm_num)
  have h3 := Int.emod_nonneg (v / 256) hb.ne'
  have h4 := Int.emod_lt_of_pos (v / 256) hb
  have e : v = v % 256 + 256 * (v / 256 % b) + 256 * b * (v / 256 / b) := by
    linear_combination (-1) * Int.mul_ediv_add_emod v 256 - 256 * Int.mul_ediv_add_emod (v / 256) b
  conv_lhs => rw [e, Int.add_mul_emod_self_left]
  exact Int.emod_eq_of_lt (by omega) (by nlinarith)

/-- An element whose bytes are those of `v` reads as v modulo 256^n. -/
theorem readLE_of_bytes {m : Memory} {a n : Nat} {v : Int}
    (h : ∀ i < n, m.read (wrapAddr (a + i)) = BitVec.ofInt 8 (v / 256 ^ i)) :
    (m.readLE a n : Int) = v % 256 ^ n := by
  induction n generalizing a v with
  | zero => simp [Memory.readLE]
  | succ n ih =>
    have h0 : ((m.read (wrapAddr a)).toNat : Int) = v % 256 := by
      have := h 0 (Nat.succ_pos n)
      simp only [Nat.add_zero, pow_zero, Int.ediv_one] at this
      rw [this, BitVec.toNat_ofInt]
      have : (0 : Int) ≤ v % 256 := Int.emod_nonneg _ (by norm_num)
      simp only [Nat.cast_ofNat, Nat.reducePow]
      omega
    have ht : (m.readLE (a + 1) n : Int) = (v / 256) % 256 ^ n := by
      apply ih
      intro i hi
      have := h (i + 1) (by omega)
      rw [show a + 1 + i = a + (i + 1) by omega, this, Int.ediv_ediv_of_nonneg (by norm_num), pow_succ,
        mul_comm]
    rw [Memory.readLE, Nat.cast_add, Nat.cast_mul, h0, ht]
    have p : (0 : Int) < 256 ^ n := by positivity
    rw [pow_succ', emod_mul_split v p]
    rfl

theorem readLE_congr {m m' : Memory} {a n : Nat}
    (h : ∀ i < n, m'.read (wrapAddr (a + i)) = m.read (wrapAddr (a + i))) :
    m'.readLE a n = m.readLE a n := by
  induction n generalizing a with
  | zero => rfl
  | succ n ih =>
    rw [Memory.readLE, Memory.readLE, ih, show m'.read (wrapAddr a) = m.read (wrapAddr a) from h 0 (by omega)]
    intro i hi
    rw [show a + 1 + i = a + (i + 1) by omega]
    exact h (i + 1) (by omega)

theorem wf_writeLE {m : Memory} (a n : Nat) (v : Int) (hm : m.wf = true) : (m.writeLE a n v).wf = true := by
  induction n generalizing m a v with
  | zero => exact hm
  | succ n ih => exact ih _ _ (wf_write _ hm (wrapAddr_lt a))

/-! ### Lists of stores -/

@[simp] theorem applyStores_nil (m : Memory) : m.applyStores [] = m := rfl

theorem applyStores_cons (m : Memory) (st : Store) (l : List Store) :
    m.applyStores (st :: l) = (m.writeLE st.addr st.len st.val).applyStores l := rfl

theorem applyStores_append (m : Memory) (l l' : List Store) :
    m.applyStores (l ++ l') = (m.applyStores l).applyStores l' := by
  simp [Memory.applyStores, List.foldl_append]

theorem covers_iff (st : Store) (x : Nat) :
    st.covers x = true ↔ ∃ i < st.len, x = wrapAddr (st.addr + i) := by
  simp [Store.covers]

theorem storesCover_iff (l : List Store) (x : Nat) :
    storesCover l x = true ↔ ∃ st ∈ l, ∃ i < st.len, x = wrapAddr (st.addr + i) := by
  simp [storesCover, covers_iff]

theorem storesCover_cons (st : Store) (l : List Store) (x : Nat) :
    storesCover (st :: l) x = (st.covers x || storesCover l x) := rfl

/-- The frame of a list of stores: a byte that no store writes reads as before. -/
theorem read_applyStores_outside {m : Memory} {l : List Store} {x : Nat} (h : storesCover l x = false) :
    (m.applyStores l).read x = m.read x := by
  induction l generalizing m with
  | nil => rfl
  | cons st l ih =>
    rw [storesCover_cons, Bool.or_eq_false_iff] at h
    rw [applyStores_cons, ih h.2, read_writeLE_outside]
    intro i hi e
    have : st.covers x = true := (covers_iff st x).2 ⟨i, hi, e⟩
    simp [this] at h

/-- The last store that writes a byte decides what it reads as. -/
theorem read_applyStores_last {m : Memory} {l l' : List Store} {st : Store} {i : Nat}
    (hlen : st.len ≤ Config.addressSpace) (hi : i < st.len)
    (h : storesCover l' (wrapAddr (st.addr + i)) = false) :
    (m.applyStores (l ++ st :: l')).read (wrapAddr (st.addr + i)) = BitVec.ofInt 8 (st.val / 256 ^ i) := by
  rw [applyStores_append, applyStores_cons, read_applyStores_outside h, read_writeLE_at hlen hi]

theorem wf_applyStores {m : Memory} (l : List Store) (hm : m.wf = true) : (m.applyStores l).wf = true := by
  induction l generalizing m with
  | nil => exact hm
  | cons st l ih => exact ih (wf_writeLE _ _ _ hm)

/-! ### Host accesses and released regions -/

theorem wf_writeBytes {m : Memory} {a : Nat} {bs : List Byte} (hm : m.wf = true)
    (h : a + bs.length ≤ Config.addressSpace) : (m.writeBytes a bs).wf = true := by
  induction bs generalizing m a with
  | nil => exact hm
  | cons b t ih =>
    simp only [List.length_cons] at h
    exact ih (wf_write _ hm (by omega)) (by omega)

theorem read_writeBytes_outside {m : Memory} {a x : Nat} {bs : List Byte}
    (h : x < a ∨ a + bs.length ≤ x) : (m.writeBytes a bs).read x = m.read x := by
  induction bs generalizing m a with
  | nil => rfl
  | cons b t ih =>
    simp only [List.length_cons] at h
    rw [Memory.writeBytes, ih (by omega), read_write_other (by omega)]

theorem read_writeBytes_at {m : Memory} {a : Nat} {bs : List Byte} {i : Nat} (hi : i < bs.length) :
    (m.writeBytes a bs).read (a + i) = bs[i] := by
  induction bs generalizing m a i with
  | nil => simp at hi
  | cons b t ih =>
    rw [Memory.writeBytes]
    cases i with
    | zero => rw [read_writeBytes_outside (by omega)]; simp
    | succ i =>
      simp only [List.length_cons] at hi
      have := ih (m := m.write a b) (a := a + 1) (i := i) (by omega)
      rw [show a + (i + 1) = a + 1 + i by omega, this]
      simp

theorem wf_foldl_forget {m : Memory} (d a : Nat) (l : List Nat) (hm : m.wf = true) :
    (l.foldl (fun m i => m.forget d (wrapAddr (a + i))) m).wf = true := by
  induction l generalizing m with
  | nil => exact hm
  | cons i l ih => exact ih (wf_forget _ hm (wrapAddr_lt _))

theorem wf_forgetRange {m : Memory} (d a n : Nat) (hm : m.wf = true) : (m.forgetRange d a n).wf = true :=
  wf_foldl_forget d a _ hm

theorem read_foldl_forget_outside {m : Memory} {d a x : Nat} {l : List Nat}
    (h : ∀ i ∈ l, x ≠ wrapAddr (a + i)) :
    (l.foldl (fun m i => m.forget d (wrapAddr (a + i))) m).read x = m.read x := by
  induction l generalizing m with
  | nil => rfl
  | cons i l ih =>
    rw [List.foldl_cons, ih (fun j hj => h j (List.mem_cons_of_mem _ hj)),
      read_forget_other (h i List.mem_cons_self)]

/-- A byte outside a released range reads as before. -/
theorem read_forgetRange_outside {m : Memory} {d a n x : Nat} (h : ∀ i < n, x ≠ wrapAddr (a + i)) :
    (m.forgetRange d a n).read x = m.read x :=
  read_foldl_forget_outside (fun i hi => h i (List.mem_range.1 hi))

end Sys2Proof.Machine
end

