-- ==== Sys2Proof/Laws/Elements.lean ====
section
/-! SUPPORT. Whole elements in memory: a load after a store, the frame of a load, and what a list of
element stores leaves behind. -/

namespace Sys2Proof.Machine

/-- `ptrPlus` adds without wrapping when the sum is an address (20_memory.md R103). -/
theorem ptrPlus_eq {p : Word} {off : Int} (h0 : 0 ≤ (p.toNat : Int) + off)
    (h1 : (p.toNat : Int) + off < 2 ^ 32) : (ptrPlus p off : Int) = p.toNat + off := by
  unfold ptrPlus
  rw [Int.emod_eq_of_lt h0 h1, Int.toNat_of_nonneg h0]

theorem ptrPlus_lt (p : Word) (off : Int) : ptrPlus p off < 2 ^ 32 := by
  unfold ptrPlus
  omega

theorem readLE_lt (m : Memory) (a n : Nat) : m.readLE a n < 256 ^ n := by
  induction n generalizing a with
  | zero => simp [Memory.readLE]
  | succ n ih =>
    have := ih (a + 1)
    have hb := (m.read (wrapAddr a)).isLt
    rw [Memory.readLE, pow_succ']
    omega

/-- A load gives a value of its element type (00_scope.md R14, R15). -/
theorem load_holds (m : Memory) (a : Nat) (t : ElemType) : t.holds (m.load a t) := by
  cases t with
  | f32 =>
    have := readLE_lt m a 4
    exact ⟨Int.natCast_nonneg _, by simp only [Memory.load]; omega⟩
  | s8 =>
    exact ⟨BitVec.le_toInt (BitVec.ofNat 8 (m.readLE a 1)),
      BitVec.toInt_lt (x := BitVec.ofNat 8 (m.readLE a 1))⟩
  | s16 =>
    exact ⟨BitVec.le_toInt (BitVec.ofNat 16 (m.readLE a 2)),
      BitVec.toInt_lt (x := BitVec.ofNat 16 (m.readLE a 2))⟩
  | s32 =>
    exact ⟨BitVec.le_toInt (BitVec.ofNat 32 (m.readLE a 4)),
      BitVec.toInt_lt (x := BitVec.ofNat 32 (m.readLE a 4))⟩
  | s64 =>
    exact ⟨BitVec.le_toInt (BitVec.ofNat 64 (m.readLE a 8)),
      BitVec.toInt_lt (x := BitVec.ofNat 64 (m.readLE a 8))⟩

/-- An element whose bytes are those of `v` loads as `v`, if `v` is a value of its type. -/
theorem load_of_bytes {m : Memory} {a : Nat} {t : ElemType} {v : Int} (hv : t.holds v)
    (h : ∀ i < t.size, m.read (wrapAddr (a + i)) = BitVec.ofInt 8 (v / 256 ^ i)) : m.load a t = v := by
  have key : (m.readLE a t.size : Int) = v % 256 ^ t.size := readLE_of_bytes h
  cases t <;> simp only [ElemType.size, ElemType.holds, Memory.load] at *
  · omega
  all_goals
    rw [BitVec.toInt_ofNat', key]
    norm_num [Int.bmod_def]
    omega

/-- A load sees only its own bytes. -/
theorem load_congr {m m' : Memory} {a : Nat} {t : ElemType}
    (h : ∀ i < t.size, m'.read (wrapAddr (a + i)) = m.read (wrapAddr (a + i))) :
    m'.load a t = m.load a t := by
  cases t <;> simp only [ElemType.size] at h <;> simp only [Memory.load] <;> rw [readLE_congr h]

/-- An element that no store of the list touches loads as before. -/
theorem load_applyStores_outside {m : Memory} {l : List Store} {a : Nat} {t : ElemType}
    (h : ∀ i < t.size, storesCover l (wrapAddr (a + i)) = false) :
    (m.applyStores l).load a t = m.load a t :=
  load_congr fun i hi => read_applyStores_outside (h i hi)

/-- A byte on which all the stores that write it agree reads as they say. -/
theorem read_applyStores_agree {m : Memory} {l : List Store} {x : Nat} {b : Byte}
    (hlen : ∀ st ∈ l, st.len ≤ Config.addressSpace) (hc : storesCover l x = true)
    (h : ∀ st ∈ l, ∀ i < st.len, x = wrapAddr (st.addr + i) → BitVec.ofInt 8 (st.val / 256 ^ i) = b) :
    (m.applyStores l).read x = b := by
  induction l generalizing m with
  | nil => simp [storesCover] at hc
  | cons st l ih =>
    rw [applyStores_cons]
    cases ht : storesCover l x with
    | true =>
      exact ih (fun s hs => hlen s (List.mem_cons_of_mem _ hs)) ht
        (fun s hs => h s (List.mem_cons_of_mem _ hs))
    | false =>
      rw [storesCover_cons, ht, Bool.or_false] at hc
      obtain ⟨i, hi, hx⟩ := (covers_iff st x).1 hc
      rw [read_applyStores_outside ht, hx, read_writeLE_at (hlen st List.mem_cons_self) hi]
      exact h st List.mem_cons_self i hi hx

/-- An element of a list of stores loads as stored, if every other store of the list is the same store or
touches none of its bytes. -/
theorem load_applyStores_mem {m : Memory} {l : List Store} {st : Store} {a : Nat} {t : ElemType}
    (hst : st ∈ l) (ha : st.addr = a) (hlen : t.size ≤ st.len) (hv : t.holds st.val)
    (hl : ∀ s ∈ l, s.len ≤ Config.addressSpace)
    (h : ∀ s ∈ l, (s.addr = st.addr ∧ s.val = st.val) ∨
      ∀ i < t.size, ∀ j < s.len, wrapAddr (a + i) ≠ wrapAddr (s.addr + j)) :
    (m.applyStores l).load a t = st.val := by
  refine load_of_bytes hv fun i hi => ?_
  refine read_applyStores_agree hl ?_ ?_
  · rw [storesCover_iff]
    exact ⟨st, hst, i, by omega, by rw [ha]⟩
  · intro s hs j hj hx
    rcases h s hs with ⟨h1, h2⟩ | h1
    · have hij : i = j := by
        by_contra hne
        have hi' : i < Config.addressSpace := lt_of_lt_of_le (by omega : i < st.len) (hl st hst)
        have hj' : j < Config.addressSpace := lt_of_lt_of_le hj (hl s hs)
        exact wrapAddr_ne hi' hj' hne (by rw [hx, h1, ha])
      rw [h2, hij]
    · exact absurd hx (h1 i hi j hj)

end Sys2Proof.Machine
end

