-- ==== Sys2Proof/Laws/Geometry.lean ====
section
/-! SUPPORT. What a legal configuration gives: positive extents, aligned sizes, offsets in order, the scratch
region inside the address space. -/

namespace Sys2Proof.Machine

theorem ceilDiv_mul_ge {a b : Int} (hb : 0 < b) : a ≤ ceilDiv a b * b := by
  unfold ceilDiv
  have h1 := Int.emod_nonneg (-a) hb.ne'
  have h2 := Int.emod_add_mul_ediv (-a) b
  have : -(-a / b) * b = a + -a % b := by linear_combination (-1) * h2
  omega

theorem ceilDiv_mul_lt {a b : Int} (hb : 0 < b) : ceilDiv a b * b < a + b := by
  unfold ceilDiv
  have h1 := Int.emod_lt_of_pos (-a) hb
  have h2 := Int.emod_add_mul_ediv (-a) b
  have : -(-a / b) * b = a + -a % b := by linear_combination (-1) * h2
  omega

theorem le_alignUp {v k : Int} (hk : 0 < k) : v ≤ alignUp v k := ceilDiv_mul_ge hk

theorem alignUp_lt {v k : Int} (hk : 0 < k) : alignUp v k < v + k := ceilDiv_mul_lt hk

theorem alignUp_emod (v k : Int) : alignUp v k % k = 0 := Int.mul_emod_left _ _

/-- Element sizes are 1, 2, 4 or 8 (10_state.md R62, 20_memory.md R106). -/
theorem size_cases (t : ElemType) : t.size = 1 ∨ t.size = 2 ∨ t.size = 4 ∨ t.size = 8 := by
  cases t <;> simp [ElemType.size]

theorem esIn_cases (p : Prec) : p.esIn = 1 ∨ p.esIn = 2 ∨ p.esIn = 4 := by
  cases p <;> simp [Prec.esIn, Prec.tIn, ElemType.size]

theorem esK_cases (p : Prec) : p.esK = 1 ∨ p.esK = 2 ∨ p.esK = 4 := by
  cases p <;> simp [Prec.esK, Prec.tK, ElemType.size]

/-- On a legal shape every extent of the two axes is positive and no padding is negative
(40_planner.md R172). -/
structure Axes.Legal (x : Axes) : Prop where
  /-- Input extents. -/
  input : 0 < x.inA ∧ 0 < x.inC
  /-- Output extents. -/
  output : 0 < x.outA ∧ 0 < x.outC
  /-- Kernel extents. -/
  kernel : 0 < x.kA ∧ 0 < x.kC
  /-- Strides. -/
  stride : 0 < x.sA ∧ 0 < x.sC
  /-- Dilations. -/
  dilation : 0 < x.dA ∧ 0 < x.dC
  /-- Paddings. -/
  pad : 0 ≤ x.pA ∧ 0 ≤ x.pC

theorem ShapeLegal.axes {c : Cfg} (h : ShapeLegal c) : c.axes.Legal := by
  obtain ⟨_, _, h3, h4, h5, h6, h7, h8⟩ := h
  unfold Cfg.axes
  split
  · exact ⟨⟨h3.1, h3.2.1⟩, ⟨h4.1, h4.2⟩, ⟨h5.1, h5.2.1⟩, ⟨h6.2, h6.1⟩, ⟨h7.2, h7.1⟩, ⟨h8.2, h8.1⟩⟩
  · exact ⟨⟨h3.2.1, h3.1⟩, ⟨h4.2, h4.1⟩, ⟨h5.2.1, h5.1⟩, ⟨h6.1, h6.2⟩, ⟨h7.1, h7.2⟩, ⟨h8.1, h8.2⟩⟩

theorem dilatedExtent_ge {k d : Int} (hk : 0 < k) (hd : 0 < d) : k ≤ dilatedExtent k d := by
  unfold dilatedExtent
  nlinarith

theorem Axes.Legal.le_dkeA {x : Axes} (h : x.Legal) : x.kA ≤ x.dkeA :=
  dilatedExtent_ge h.kernel.1 h.dilation.1

theorem Axes.Legal.le_dkeC {x : Axes} (h : x.Legal) : x.kC ≤ x.dkeC :=
  dilatedExtent_ge h.kernel.2 h.dilation.2

theorem Axes.Legal.line_pos {x : Axes} (h : x.Legal) : 0 < x.line :=
  lt_of_lt_of_le (by have := h.input.2; have := h.pad.2; omega) (le_max_right _ _)

/-- The bounds of the implementation parameters (92_eei_decisions.md, open parameters). -/
theorem params_ok_iff (p : Config.Params) :
    p.ok = true ↔ 2 ≤ p.rIter ∧ p.rIter ≤ 255 ∧ 1 ≤ p.kwAlign ∧ p.kwAlign ≤ 255 ∧
      p.hdrBytes % 8 = 0 ∧ p.hdrBytes ≤ 65528 := by
  simp [Config.Params.ok, and_assoc]

/-- What the planner's sizes satisfy on a legal shape: the parts of the scratch region are non-negative,
a line fits in its slot, a staged line is long enough (10_state.md R66 to R72). -/
structure PlanFacts (p : Config.Params) (c : Cfg) : Prop where
  /-- A line fits in its slot. -/
  line : c.axes.line * c.precision.esIn ≤ c.entryBytes
  /-- A slot is not empty. -/
  entry : 0 < c.entryBytes
  /-- Slots are 8-byte aligned. -/
  entryAligned : c.entryBytes % 8 = 0
  /-- The ring is not empty, and has room for a stride beyond the dilated extent. -/
  cap : c.axes.dkeA + c.axes.sA ≤ c.ringCapacity p ∧ 0 < c.ringCapacity p
  /-- A staged line has room for the dilated taps. -/
  staged : c.axes.dkeC ≤ c.kernelLine p ∧ 0 < c.kernelLine p
  /-- The staging region holds its lines. -/
  staging : c.axes.kA * c.kernelLine p * c.precision.esK ≤ c.stagingBytes p
  /-- The regions come in order. -/
  order : Cfg.offCb p < c.offKs p ∧ c.offKs p < c.offAcc p ∧ c.offAcc p < c.scratchTotal p

theorem planFacts {p : Config.Params} {c : Cfg} (hp : p.ok = true) (hc : ShapeLegal c) :
    PlanFacts p c := by
  have hx := hc.axes
  obtain ⟨p1, _, p3, _⟩ := (params_ok_iff p).1 hp
  have hr : (2 : Int) ≤ p.rIter := by exact_mod_cast p1
  have hw : (0 : Int) < p.kwAlign := by exact_mod_cast p3
  have hd := hx.le_dkeA
  have hdc := hx.le_dkeC
  have hl := hx.line_pos
  obtain ⟨k1, k2⟩ := hx.kernel
  obtain ⟨s1, s2⟩ := hx.stride
  obtain ⟨o1, o2⟩ := hx.output
  have ei : 0 < c.precision.esIn := by rcases esIn_cases c.precision with h | h | h <;> omega
  have ek : 0 < c.precision.esK := by rcases esK_cases c.precision with h | h | h <;> omega
  have line : c.axes.line * c.precision.esIn ≤ c.entryBytes := le_alignUp (by norm_num)
  have entry : 0 < c.entryBytes := lt_of_lt_of_le (Int.mul_pos hl ei) line
  have cap : c.axes.dkeA + c.axes.sA ≤ c.ringCapacity p := by
    unfold Cfg.ringCapacity
    nlinarith
  have staged : c.axes.dkeC ≤ c.kernelLine p := le_alignUp hw
  have staging : c.axes.kA * c.kernelLine p * c.precision.esK ≤ c.stagingBytes p :=
    le_alignUp (by norm_num)
  have ks : 0 < c.stagingBytes p :=
    lt_of_lt_of_le (Int.mul_pos (Int.mul_pos k1 (by omega)) ek) staging
  have ring : 0 < c.ringBytes p := Int.mul_pos (by omega) entry
  have acc : 0 < c.accBytes p := Int.mul_pos (Int.mul_pos (by omega) o2) (by decide)
  exact ⟨line, entry, alignUp_emod _ _, ⟨cap, by omega⟩, ⟨staged, by omega⟩, staging,
    ⟨by unfold Cfg.offKs; omega, by unfold Cfg.offAcc; omega, by unfold Cfg.scratchTotal; omega⟩⟩

theorem Region.placed_iff (r : Region) : r.placed = true ↔ 0 < r.base ∧ r.base + r.size ≤ 2 ^ 32 := by
  unfold Region.placed
  rw [Bool.and_eq_true, decide_eq_true_iff, decide_eq_true_iff]
  exact Iff.rfl

theorem Region.has_iff (r : Region) (a : Nat) : r.has a = true ↔ r.base ≤ a ∧ a < r.base + r.size := by
  simp [Region.has]

/-- Disjoint regions share no byte. -/
theorem Region.not_has_of_disjoint {r t : Region} (h : r.disjoint t = true) {a : Nat} (hr : r.has a = true) :
    t.has a = false := by
  simp only [Region.disjoint, Bool.or_eq_true, decide_eq_true_eq] at h
  rw [Region.has_iff] at hr
  rw [← Bool.not_eq_true, Region.has_iff]
  omega

/-- The scratch region of a legal configuration ends inside the address space (20_memory.md R103). -/
theorem ConfigLegal.scratch_inside {p : Config.Params} {c : Cfg} (h : ConfigLegal p c) :
    0 < c.scratchPtr.toNat ∧ (c.scratchPtr.toNat : Int) + c.scratchTotal p ≤ 2 ^ 32 := by
  have h1 := h.placed
  simp only [Cfg.regionsPlaced, Cfg.regions, List.all_cons, Bool.and_eq_true] at h1
  have h2 := (Region.placed_iff _).1 h1.2.1
  simp only [Cfg.scratchRegion, regionAt] at h2
  exact ⟨h2.1, by omega⟩

/-- The planner's size fits in a register (40_planner.md R173). -/
theorem ConfigLegal.total_le {p : Config.Params} {c : Cfg} (h : ConfigLegal p c) :
    c.scratchTotal p ≤ 2 ^ 31 - 1 :=
  (checkCapacity_eq_none p c).1 h.capacity (11, c.scratchTotal p) (by simp [capacityQuantities])

end Sys2Proof.Machine
end

