-- ==== Sys2Proof/Laws/PerInstr.lean ====
section
/-! SUPPORT. One lemma per constructor of `Instr`, for the statements made per command. -/

/-- The word of a well-formed command lies in that command's own row of the opcode map and in no other row
(30_encoding.md R143). -/
def Sys2Proof.Laws.MatchMask.Statement (i : Sys2Proof.Instr) : Prop :=
  Sys2Proof.wellFormed i = true →
    Sys2Proof.encode i &&& Sys2Proof.rowMask i = Sys2Proof.rowMatch i ∧
      ∀ j : Sys2Proof.Instr,
        Sys2Proof.encode i &&& Sys2Proof.rowMask j = Sys2Proof.rowMatch j →
          Sys2Proof.opcode j = Sys2Proof.opcode i

namespace Sys2Proof.Laws.MatchMask

/-- Every mask keeps the low byte, so a matching row has the word's own opcode. -/
theorem same_opcode (i j : Instr) (h : encode i &&& rowMask j = rowMatch j) : opcode j = opcode i := by
  have hb : ∀ k : Instr, opcode k < 256 := by intro k; cases k <;> simp [opcode]
  have hm : ∀ w : Word, (w &&& rowMask j).setWidth 8 = w.setWidth 8 := by
    intro w
    cases j <;> ext k hk <;> interval_cases k <;> simp [rowMask]
  have hi : (encode i).setWidth 8 = BitVec.ofNat 8 (opcode i) := by
    unfold encode
    generalize BitVec.ofNat 8 (operandOf i) = n
    generalize BitVec.ofNat 8 (opcode i) = b
    have e : ((0 : BitVec 16) ++ n ++ b).toNat % 256 = b.toNat := by
      rw [BitVec.toNat_append, Nat.shiftLeft_eq, Nat.mul_comm]
      have := Nat.two_pow_add_eq_or_of_lt b.isLt ((0 : BitVec 16) ++ n).toNat
      have := b.isLt
      omega
    exact BitVec.eq_of_toNat_eq (by rw [BitVec.toNat_setWidth]; exact e)
  have hj : (rowMatch j).setWidth 8 = BitVec.ofNat 8 (opcode j) := by
    apply BitVec.eq_of_toNat_eq
    simp only [rowMatch, BitVec.toNat_setWidth, BitVec.toNat_ofNat]
    omega
  have e := congrArg (BitVec.setWidth 8) h
  rw [hm, hi, hj] at e
  have e' := congrArg BitVec.toNat e
  simp only [BitVec.toNat_ofNat] at e'
  have := hb i
  have := hb j
  omega

theorem nop : Statement .nop := fun _ => ⟨by decide, same_opcode _⟩

theorem getsize : Statement .getsize := fun _ => ⟨by decide, same_opcode _⟩

theorem callBegin : Statement .callBegin := fun _ => ⟨by decide, same_opcode _⟩

theorem callEnd : Statement .callEnd := fun _ => ⟨by decide, same_opcode _⟩

theorem conv : Statement .conv := fun _ => ⟨by decide, same_opcode _⟩

theorem decomp : Statement .decomp := fun _ => ⟨by decide, same_opcode _⟩

theorem cbInit : Statement .cbInit := fun _ => ⟨by decide, same_opcode _⟩

/-- The operand field is outside the mask, so every operand is in the row. -/
theorem cbFeed (n : Nat) : Statement (.cbFeed n) := fun _ => by
  refine ⟨?_, same_opcode _⟩
  simp only [encode, operandOf, opcode, rowMask, rowMatch]
  generalize BitVec.ofNat 8 n = b
  revert b
  decide +kernel

theorem ksClear : Statement .ksClear := fun _ => ⟨by decide, same_opcode _⟩

theorem kstage : Statement .kstage := fun _ => ⟨by decide, same_opcode _⟩

/-- The operand field is outside the mask, so every operand is in the row. -/
theorem macTile (n : Nat) : Statement (.macTile n) := fun _ => by
  refine ⟨?_, same_opcode _⟩
  simp only [encode, operandOf, opcode, rowMask, rowMatch]
  generalize BitVec.ofNat 8 n = b
  revert b
  decide +kernel

theorem reqWrite : Statement .reqWrite := fun _ => ⟨by decide, same_opcode _⟩

end Sys2Proof.Laws.MatchMask
end

