-- ==== Sys2Proof/Laws/State.lean ====
section
/-! SUPPORT. What each update of the state leaves in each field: one lemma per field per update, all by
rfl, so that later proofs never unfold a record update. -/

namespace Sys2Proof.Machine

/-! ### raiseErr -/

@[simp] theorem raiseErr_params (s : State) (e : CmdError) : (s.raiseErr e).params = s.params := rfl
@[simp] theorem raiseErr_status (s : State) (e : CmdError) : (s.raiseErr e).status = { s.status with err := true } := rfl
@[simp] theorem raiseErr_resultLo (s : State) (e : CmdError) : (s.raiseErr e).resultLo = 0xFFFFFFFF := rfl
@[simp] theorem raiseErr_resultHi (s : State) (e : CmdError) : (s.raiseErr e).resultHi = 0xFFFFFFFF := rfl
@[simp] theorem raiseErr_cause (s : State) (e : CmdError) : (s.raiseErr e).cause = BitVec.ofNat 32 e.cause.code := rfl
@[simp] theorem raiseErr_causeInfo (s : State) (e : CmdError) : (s.raiseErr e).causeInfo = BitVec.ofNat 32 e.info := rfl
@[simp] theorem raiseErr_cfg (s : State) (e : CmdError) : (s.raiseErr e).cfg = s.cfg := rfl
@[simp] theorem raiseErr_ctx (s : State) (e : CmdError) : (s.raiseErr e).ctx = s.ctx := rfl
@[simp] theorem raiseErr_book (s : State) (e : CmdError) : (s.raiseErr e).book = s.book := rfl
@[simp] theorem raiseErr_mem (s : State) (e : CmdError) : (s.raiseErr e).mem = s.mem := rfl
@[simp] theorem raiseErr_freeDraws (s : State) (e : CmdError) : (s.raiseErr e).freeDraws = s.freeDraws := rfl
@[simp] theorem raiseErr_hostQueue (s : State) (e : CmdError) : (s.raiseErr e).hostQueue = s.hostQueue := rfl
@[simp] theorem raiseErr_reply (s : State) (e : CmdError) : (s.raiseErr e).reply = s.reply := rfl

/-! ### finish -/

@[simp] theorem finish_params (s : State) (v : Int) : (s.finish v).params = s.params := rfl
@[simp] theorem finish_status (s : State) (v : Int) : (s.finish v).status = s.status := rfl
@[simp] theorem finish_resultLo (s : State) (v : Int) : (s.finish v).resultLo = BitVec.ofInt 32 v := rfl
@[simp] theorem finish_resultHi (s : State) (v : Int) : (s.finish v).resultHi = BitVec.ofInt 32 (v / 2 ^ 32) := rfl
@[simp] theorem finish_cause (s : State) (v : Int) : (s.finish v).cause = 0 := rfl
@[simp] theorem finish_causeInfo (s : State) (v : Int) : (s.finish v).causeInfo = 0 := rfl
@[simp] theorem finish_cfg (s : State) (v : Int) : (s.finish v).cfg = s.cfg := rfl
@[simp] theorem finish_ctx (s : State) (v : Int) : (s.finish v).ctx = s.ctx := rfl
@[simp] theorem finish_book (s : State) (v : Int) : (s.finish v).book = s.book := rfl
@[simp] theorem finish_mem (s : State) (v : Int) : (s.finish v).mem = s.mem := rfl
@[simp] theorem finish_freeDraws (s : State) (v : Int) : (s.finish v).freeDraws = s.freeDraws := rfl
@[simp] theorem finish_hostQueue (s : State) (v : Int) : (s.finish v).hostQueue = s.hostQueue := rfl
@[simp] theorem finish_reply (s : State) (v : Int) : (s.finish v).reply = s.reply := rfl

/-! ### store -/

@[simp] theorem store_params (s : State) (l : List Store) : (s.store l).params = s.params := rfl
@[simp] theorem store_status (s : State) (l : List Store) : (s.store l).status = s.status := rfl
@[simp] theorem store_resultLo (s : State) (l : List Store) : (s.store l).resultLo = s.resultLo := rfl
@[simp] theorem store_resultHi (s : State) (l : List Store) : (s.store l).resultHi = s.resultHi := rfl
@[simp] theorem store_cause (s : State) (l : List Store) : (s.store l).cause = s.cause := rfl
@[simp] theorem store_causeInfo (s : State) (l : List Store) : (s.store l).causeInfo = s.causeInfo := rfl
@[simp] theorem store_cfg (s : State) (l : List Store) : (s.store l).cfg = s.cfg := rfl
@[simp] theorem store_ctx (s : State) (l : List Store) : (s.store l).ctx = s.ctx := rfl
@[simp] theorem store_book (s : State) (l : List Store) : (s.store l).book = s.book := rfl
@[simp] theorem store_mem (s : State) (l : List Store) : (s.store l).mem = s.mem.applyStores l := rfl
@[simp] theorem store_freeDraws (s : State) (l : List Store) : (s.store l).freeDraws = s.freeDraws := rfl
@[simp] theorem store_hostQueue (s : State) (l : List Store) : (s.store l).hostQueue = s.hostQueue := rfl
@[simp] theorem store_reply (s : State) (l : List Store) : (s.store l).reply = s.reply := rfl

/-! ### releaseBytes -/

@[simp] theorem releaseBytes_params (s : State) (a n : Nat) : (s.releaseBytes a n).params = s.params := rfl
@[simp] theorem releaseBytes_status (s : State) (a n : Nat) : (s.releaseBytes a n).status = s.status := rfl
@[simp] theorem releaseBytes_resultLo (s : State) (a n : Nat) : (s.releaseBytes a n).resultLo = s.resultLo := rfl
@[simp] theorem releaseBytes_resultHi (s : State) (a n : Nat) : (s.releaseBytes a n).resultHi = s.resultHi := rfl
@[simp] theorem releaseBytes_cause (s : State) (a n : Nat) : (s.releaseBytes a n).cause = s.cause := rfl
@[simp] theorem releaseBytes_causeInfo (s : State) (a n : Nat) : (s.releaseBytes a n).causeInfo = s.causeInfo := rfl
@[simp] theorem releaseBytes_cfg (s : State) (a n : Nat) : (s.releaseBytes a n).cfg = s.cfg := rfl
@[simp] theorem releaseBytes_ctx (s : State) (a n : Nat) : (s.releaseBytes a n).ctx = s.ctx := rfl
@[simp] theorem releaseBytes_book (s : State) (a n : Nat) : (s.releaseBytes a n).book = s.book := rfl
@[simp] theorem releaseBytes_mem (s : State) (a n : Nat) : (s.releaseBytes a n).mem = s.mem.forgetRange s.freeDraws a n := rfl
@[simp] theorem releaseBytes_freeDraws (s : State) (a n : Nat) : (s.releaseBytes a n).freeDraws = s.freeDraws + 1 := rfl
@[simp] theorem releaseBytes_hostQueue (s : State) (a n : Nat) : (s.releaseBytes a n).hostQueue = s.hostQueue := rfl
@[simp] theorem releaseBytes_reply (s : State) (a n : Nat) : (s.releaseBytes a n).reply = s.reply := rfl

/-! ### close -/

@[simp] theorem close_params (s : State) : (s.close).params = s.params := rfl
@[simp] theorem close_status (s : State) : (s.close).status = s.status.close := rfl
@[simp] theorem close_resultLo (s : State) : (s.close).resultLo = s.resultLo := rfl
@[simp] theorem close_resultHi (s : State) : (s.close).resultHi = s.resultHi := rfl
@[simp] theorem close_cause (s : State) : (s.close).cause = s.cause := rfl
@[simp] theorem close_causeInfo (s : State) : (s.close).causeInfo = s.causeInfo := rfl
@[simp] theorem close_cfg (s : State) : (s.close).cfg = s.cfg := rfl
@[simp] theorem close_ctx (s : State) : (s.close).ctx = s.ctx := rfl
@[simp] theorem close_book (s : State) : (s.close).book = s.book := rfl
@[simp] theorem close_mem (s : State) : (s.close).mem = s.mem := rfl
@[simp] theorem close_freeDraws (s : State) : (s.close).freeDraws = s.freeDraws := rfl
@[simp] theorem close_hostQueue (s : State) : (s.close).hostQueue = s.hostQueue := rfl
@[simp] theorem close_reply (s : State) : (s.close).reply = s.reply := rfl

/-! ### writeIc -/

@[simp] theorem writeIc_params (s : State) (w : Word) : (s.writeIc w).params = s.params := rfl
@[simp] theorem writeIc_status (s : State) (w : Word) : (s.writeIc w).status = s.status.dropIc := rfl
@[simp] theorem writeIc_resultLo (s : State) (w : Word) : (s.writeIc w).resultLo = s.resultLo := rfl
@[simp] theorem writeIc_resultHi (s : State) (w : Word) : (s.writeIc w).resultHi = s.resultHi := rfl
@[simp] theorem writeIc_cause (s : State) (w : Word) : (s.writeIc w).cause = s.cause := rfl
@[simp] theorem writeIc_causeInfo (s : State) (w : Word) : (s.writeIc w).causeInfo = s.causeInfo := rfl
@[simp] theorem writeIc_cfg (s : State) (w : Word) : (s.writeIc w).cfg = s.cfg := rfl
@[simp] theorem writeIc_ctx (s : State) (w : Word) : (s.writeIc w).ctx = { s.ctx with ic := w } := rfl
@[simp] theorem writeIc_book (s : State) (w : Word) : (s.writeIc w).book = s.book := rfl
@[simp] theorem writeIc_mem (s : State) (w : Word) : (s.writeIc w).mem = s.mem := rfl
@[simp] theorem writeIc_freeDraws (s : State) (w : Word) : (s.writeIc w).freeDraws = s.freeDraws := rfl
@[simp] theorem writeIc_hostQueue (s : State) (w : Word) : (s.writeIc w).hostQueue = s.hostQueue := rfl
@[simp] theorem writeIc_reply (s : State) (w : Word) : (s.writeIc w).reply = s.reply := rfl

/-! ### writeM -/

@[simp] theorem writeM_params (s : State) (w : Word) : (s.writeM w).params = s.params := rfl
@[simp] theorem writeM_status (s : State) (w : Word) : (s.writeM w).status = s.status.dropM := rfl
@[simp] theorem writeM_resultLo (s : State) (w : Word) : (s.writeM w).resultLo = s.resultLo := rfl
@[simp] theorem writeM_resultHi (s : State) (w : Word) : (s.writeM w).resultHi = s.resultHi := rfl
@[simp] theorem writeM_cause (s : State) (w : Word) : (s.writeM w).cause = s.cause := rfl
@[simp] theorem writeM_causeInfo (s : State) (w : Word) : (s.writeM w).causeInfo = s.causeInfo := rfl
@[simp] theorem writeM_cfg (s : State) (w : Word) : (s.writeM w).cfg = s.cfg := rfl
@[simp] theorem writeM_ctx (s : State) (w : Word) : (s.writeM w).ctx = { s.ctx with m := w } := rfl
@[simp] theorem writeM_book (s : State) (w : Word) : (s.writeM w).book = s.book := rfl
@[simp] theorem writeM_mem (s : State) (w : Word) : (s.writeM w).mem = s.mem := rfl
@[simp] theorem writeM_freeDraws (s : State) (w : Word) : (s.writeM w).freeDraws = s.freeDraws := rfl
@[simp] theorem writeM_hostQueue (s : State) (w : Word) : (s.writeM w).hostQueue = s.hostQueue := rfl
@[simp] theorem writeM_reply (s : State) (w : Word) : (s.writeM w).reply = s.reply := rfl

/-! ### writeRes -/

@[simp] theorem writeRes_params (s : State) (w : Word) : (s.writeRes w).params = s.params := rfl
@[simp] theorem writeRes_status (s : State) (w : Word) : (s.writeRes w).status = s.status.dropRes := rfl
@[simp] theorem writeRes_resultLo (s : State) (w : Word) : (s.writeRes w).resultLo = s.resultLo := rfl
@[simp] theorem writeRes_resultHi (s : State) (w : Word) : (s.writeRes w).resultHi = s.resultHi := rfl
@[simp] theorem writeRes_cause (s : State) (w : Word) : (s.writeRes w).cause = s.cause := rfl
@[simp] theorem writeRes_causeInfo (s : State) (w : Word) : (s.writeRes w).causeInfo = s.causeInfo := rfl
@[simp] theorem writeRes_cfg (s : State) (w : Word) : (s.writeRes w).cfg = s.cfg := rfl
@[simp] theorem writeRes_ctx (s : State) (w : Word) : (s.writeRes w).ctx = { s.ctx with res := w } := rfl
@[simp] theorem writeRes_book (s : State) (w : Word) : (s.writeRes w).book = s.book := rfl
@[simp] theorem writeRes_mem (s : State) (w : Word) : (s.writeRes w).mem = s.mem := rfl
@[simp] theorem writeRes_freeDraws (s : State) (w : Word) : (s.writeRes w).freeDraws = s.freeDraws := rfl
@[simp] theorem writeRes_hostQueue (s : State) (w : Word) : (s.writeRes w).hostQueue = s.hostQueue := rfl
@[simp] theorem writeRes_reply (s : State) (w : Word) : (s.writeRes w).reply = s.reply := rfl

/-! ### writeJ0 -/

@[simp] theorem writeJ0_params (s : State) (w : Word) : (s.writeJ0 w).params = s.params := rfl
@[simp] theorem writeJ0_status (s : State) (w : Word) : (s.writeJ0 w).status = s.status.dropJ0 := rfl
@[simp] theorem writeJ0_resultLo (s : State) (w : Word) : (s.writeJ0 w).resultLo = s.resultLo := rfl
@[simp] theorem writeJ0_resultHi (s : State) (w : Word) : (s.writeJ0 w).resultHi = s.resultHi := rfl
@[simp] theorem writeJ0_cause (s : State) (w : Word) : (s.writeJ0 w).cause = s.cause := rfl
@[simp] theorem writeJ0_causeInfo (s : State) (w : Word) : (s.writeJ0 w).causeInfo = s.causeInfo := rfl
@[simp] theorem writeJ0_cfg (s : State) (w : Word) : (s.writeJ0 w).cfg = s.cfg := rfl
@[simp] theorem writeJ0_ctx (s : State) (w : Word) : (s.writeJ0 w).ctx = { s.ctx with j0 := w } := rfl
@[simp] theorem writeJ0_book (s : State) (w : Word) : (s.writeJ0 w).book = s.book := rfl
@[simp] theorem writeJ0_mem (s : State) (w : Word) : (s.writeJ0 w).mem = s.mem := rfl
@[simp] theorem writeJ0_freeDraws (s : State) (w : Word) : (s.writeJ0 w).freeDraws = s.freeDraws := rfl
@[simp] theorem writeJ0_hostQueue (s : State) (w : Word) : (s.writeJ0 w).hostQueue = s.hostQueue := rfl
@[simp] theorem writeJ0_reply (s : State) (w : Word) : (s.writeJ0 w).reply = s.reply := rfl

/-! ### writeCfg -/

@[simp] theorem writeCfg_params (s : State) (c : Cfg) : (s.writeCfg c).params = s.params := rfl
@[simp] theorem writeCfg_status (s : State) (c : Cfg) : (s.writeCfg c).status = s.status.close := rfl
@[simp] theorem writeCfg_resultLo (s : State) (c : Cfg) : (s.writeCfg c).resultLo = s.resultLo := rfl
@[simp] theorem writeCfg_resultHi (s : State) (c : Cfg) : (s.writeCfg c).resultHi = s.resultHi := rfl
@[simp] theorem writeCfg_cause (s : State) (c : Cfg) : (s.writeCfg c).cause = s.cause := rfl
@[simp] theorem writeCfg_causeInfo (s : State) (c : Cfg) : (s.writeCfg c).causeInfo = s.causeInfo := rfl
@[simp] theorem writeCfg_cfg (s : State) (c : Cfg) : (s.writeCfg c).cfg = c := rfl
@[simp] theorem writeCfg_ctx (s : State) (c : Cfg) : (s.writeCfg c).ctx = s.ctx := rfl
@[simp] theorem writeCfg_book (s : State) (c : Cfg) : (s.writeCfg c).book = s.book := rfl
@[simp] theorem writeCfg_mem (s : State) (c : Cfg) : (s.writeCfg c).mem = s.mem := rfl
@[simp] theorem writeCfg_freeDraws (s : State) (c : Cfg) : (s.writeCfg c).freeDraws = s.freeDraws := rfl
@[simp] theorem writeCfg_hostQueue (s : State) (c : Cfg) : (s.writeCfg c).hostQueue = s.hostQueue := rfl
@[simp] theorem writeCfg_reply (s : State) (c : Cfg) : (s.writeCfg c).reply = s.reply := rfl

/-! ### decompose -/

@[simp] theorem decompose_params (s : State) : (decompose s).params = s.params := rfl
@[simp] theorem decompose_status (s : State) : (decompose s).status = { s.status with decValid := true } := rfl
@[simp] theorem decompose_resultLo (s : State) : (decompose s).resultLo = s.resultLo := rfl
@[simp] theorem decompose_resultHi (s : State) : (decompose s).resultHi = s.resultHi := rfl
@[simp] theorem decompose_cause (s : State) : (decompose s).cause = s.cause := rfl
@[simp] theorem decompose_causeInfo (s : State) : (decompose s).causeInfo = s.causeInfo := rfl
@[simp] theorem decompose_cfg (s : State) : (decompose s).cfg = s.cfg := rfl
@[simp] theorem decompose_ctx (s : State) : (decompose s).ctx = s.ctx := rfl
@[simp] theorem decompose_mem (s : State) : (decompose s).mem = s.mem := rfl
@[simp] theorem decompose_freeDraws (s : State) : (decompose s).freeDraws = s.freeDraws := rfl
@[simp] theorem decompose_hostQueue (s : State) : (decompose s).hostQueue = s.hostQueue := rfl
@[simp] theorem decompose_reply (s : State) : (decompose s).reply = s.reply := rfl
@[simp] theorem decompose_book_decG (s : State) :
    (decompose s).book.decG = BitVec.ofInt 32 s.cfg.axes.commonDivisor := rfl
@[simp] theorem decompose_book_decCount (s : State) :
    (decompose s).book.decCount = BitVec.ofInt 32 s.cfg.axes.classCount := rfl
@[simp] theorem decompose_book_decRstride (s : State) :
    (decompose s).book.decRstride = BitVec.ofInt 32 s.cfg.axes.reducedStride := rfl
@[simp] theorem decompose_book_subNout (s : State) :
    (decompose s).book.subNout = s.book.subNout := rfl
@[simp] theorem decompose_book_subLead (s : State) :
    (decompose s).book.subLead = s.book.subLead := rfl
@[simp] theorem decompose_book_subNent (s : State) :
    (decompose s).book.subNent = s.book.subNent := rfl
@[simp] theorem decompose_book_cbCap (s : State) :
    (decompose s).book.cbCap = s.book.cbCap := rfl
@[simp] theorem decompose_book_cbCursor (s : State) :
    (decompose s).book.cbCursor = s.book.cbCursor := rfl
@[simp] theorem decompose_book_cbValid (s : State) :
    (decompose s).book.cbValid = s.book.cbValid := rfl
@[simp] theorem decompose_book_cbFed (s : State) :
    (decompose s).book.cbFed = s.book.cbFed := rfl
@[simp] theorem decompose_book_cbEntryBytes (s : State) :
    (decompose s).book.cbEntryBytes = s.book.cbEntryBytes := rfl
@[simp] theorem decompose_book_cbLine (s : State) :
    (decompose s).book.cbLine = s.book.cbLine := rfl
@[simp] theorem decompose_book_feedAdd (s : State) :
    (decompose s).book.feedAdd = s.book.feedAdd := rfl
@[simp] theorem decompose_book_feedReal (s : State) :
    (decompose s).book.feedReal = s.book.feedReal := rfl
@[simp] theorem decompose_book_accJ0 (s : State) :
    (decompose s).book.accJ0 = s.book.accJ0 := rfl
@[simp] theorem decompose_book_accN (s : State) :
    (decompose s).book.accN = s.book.accN := rfl
@[simp] theorem decompose_book_layCb (s : State) :
    (decompose s).book.layCb = s.book.layCb := rfl
@[simp] theorem decompose_book_layKs (s : State) :
    (decompose s).book.layKs = s.book.layKs := rfl
@[simp] theorem decompose_book_layAcc (s : State) :
    (decompose s).book.layAcc = s.book.layAcc := rfl
@[simp] theorem decompose_book_layTotal (s : State) :
    (decompose s).book.layTotal = s.book.layTotal := rfl
@[simp] theorem decompose_book_layKcpad (s : State) :
    (decompose s).book.layKcpad = s.book.layKcpad := rfl

/-! ### openCall -/

@[simp] theorem openCall_params (s : State) : (openCall s).params = s.params := rfl
@[simp] theorem openCall_status (s : State) : (openCall s).status = { s.status with callOpen := true } := rfl
@[simp] theorem openCall_resultLo (s : State) : (openCall s).resultLo = s.resultLo := rfl
@[simp] theorem openCall_resultHi (s : State) : (openCall s).resultHi = s.resultHi := rfl
@[simp] theorem openCall_cause (s : State) : (openCall s).cause = s.cause := rfl
@[simp] theorem openCall_causeInfo (s : State) : (openCall s).causeInfo = s.causeInfo := rfl
@[simp] theorem openCall_cfg (s : State) : (openCall s).cfg = s.cfg := rfl
@[simp] theorem openCall_ctx (s : State) : (openCall s).ctx = s.ctx := rfl
@[simp] theorem openCall_mem (s : State) : (openCall s).mem = s.mem := rfl
@[simp] theorem openCall_freeDraws (s : State) : (openCall s).freeDraws = s.freeDraws := rfl
@[simp] theorem openCall_hostQueue (s : State) : (openCall s).hostQueue = s.hostQueue := rfl
@[simp] theorem openCall_reply (s : State) : (openCall s).reply = s.reply := rfl
@[simp] theorem openCall_book_decG (s : State) :
    (openCall s).book.decG = 0 := rfl
@[simp] theorem openCall_book_decCount (s : State) :
    (openCall s).book.decCount = 0 := rfl
@[simp] theorem openCall_book_decRstride (s : State) :
    (openCall s).book.decRstride = 0 := rfl
@[simp] theorem openCall_book_subNout (s : State) :
    (openCall s).book.subNout = 0 := rfl
@[simp] theorem openCall_book_subLead (s : State) :
    (openCall s).book.subLead = 0 := rfl
@[simp] theorem openCall_book_subNent (s : State) :
    (openCall s).book.subNent = 0 := rfl
@[simp] theorem openCall_book_cbCap (s : State) :
    (openCall s).book.cbCap = BitVec.ofInt 32 (s.cfg.ringCapacity s.params) := rfl
@[simp] theorem openCall_book_cbCursor (s : State) :
    (openCall s).book.cbCursor = 0 := rfl
@[simp] theorem openCall_book_cbValid (s : State) :
    (openCall s).book.cbValid = 0 := rfl
@[simp] theorem openCall_book_cbFed (s : State) :
    (openCall s).book.cbFed = 0 := rfl
@[simp] theorem openCall_book_cbEntryBytes (s : State) :
    (openCall s).book.cbEntryBytes = BitVec.ofInt 32 s.cfg.entryBytes := rfl
@[simp] theorem openCall_book_cbLine (s : State) :
    (openCall s).book.cbLine = BitVec.ofInt 32 s.cfg.axes.line := rfl
@[simp] theorem openCall_book_feedAdd (s : State) :
    (openCall s).book.feedAdd = 0 := rfl
@[simp] theorem openCall_book_feedReal (s : State) :
    (openCall s).book.feedReal = 0 := rfl
@[simp] theorem openCall_book_accJ0 (s : State) :
    (openCall s).book.accJ0 = 0 := rfl
@[simp] theorem openCall_book_accN (s : State) :
    (openCall s).book.accN = 0 := rfl
@[simp] theorem openCall_book_layCb (s : State) :
    (openCall s).book.layCb = BitVec.ofInt 32 (Cfg.offCb s.params) := rfl
@[simp] theorem openCall_book_layKs (s : State) :
    (openCall s).book.layKs = BitVec.ofInt 32 (s.cfg.offKs s.params) := rfl
@[simp] theorem openCall_book_layAcc (s : State) :
    (openCall s).book.layAcc = BitVec.ofInt 32 (s.cfg.offAcc s.params) := rfl
@[simp] theorem openCall_book_layTotal (s : State) :
    (openCall s).book.layTotal = BitVec.ofInt 32 (s.cfg.scratchTotal s.params) := rfl
@[simp] theorem openCall_book_layKcpad (s : State) :
    (openCall s).book.layKcpad = BitVec.ofInt 32 (s.cfg.kernelLine s.params) := rfl

/-! ### initRing -/

@[simp] theorem initRing_params (s : State) : (initRing s).params = s.params := rfl
@[simp] theorem initRing_status (s : State) : (initRing s).status = { s.status with cbState := .primed, accValid := false } := rfl
@[simp] theorem initRing_resultLo (s : State) : (initRing s).resultLo = s.resultLo := rfl
@[simp] theorem initRing_resultHi (s : State) : (initRing s).resultHi = s.resultHi := rfl
@[simp] theorem initRing_cause (s : State) : (initRing s).cause = s.cause := rfl
@[simp] theorem initRing_causeInfo (s : State) : (initRing s).causeInfo = s.causeInfo := rfl
@[simp] theorem initRing_cfg (s : State) : (initRing s).cfg = s.cfg := rfl
@[simp] theorem initRing_ctx (s : State) : (initRing s).ctx = s.ctx := rfl
@[simp] theorem initRing_mem (s : State) : (initRing s).mem = s.mem.applyStores (cbInitStores s) := rfl
@[simp] theorem initRing_freeDraws (s : State) : (initRing s).freeDraws = s.freeDraws := rfl
@[simp] theorem initRing_hostQueue (s : State) : (initRing s).hostQueue = s.hostQueue := rfl
@[simp] theorem initRing_reply (s : State) : (initRing s).reply = s.reply := rfl
@[simp] theorem initRing_book_decG (s : State) :
    (initRing s).book.decG = s.book.decG := rfl
@[simp] theorem initRing_book_decCount (s : State) :
    (initRing s).book.decCount = s.book.decCount := rfl
@[simp] theorem initRing_book_decRstride (s : State) :
    (initRing s).book.decRstride = s.book.decRstride := rfl
@[simp] theorem initRing_book_subNout (s : State) :
    (initRing s).book.subNout = BitVec.ofInt 32 (s.cfg.axes.subOutputs s.ctx.res.toInt) := rfl
@[simp] theorem initRing_book_subLead (s : State) :
    (initRing s).book.subLead = BitVec.ofInt 32 (s.cfg.axes.subLead s.ctx.res.toInt) := rfl
@[simp] theorem initRing_book_subNent (s : State) :
    (initRing s).book.subNent = BitVec.ofInt 32 (s.cfg.axes.subEntries s.ctx.res.toInt) := rfl
@[simp] theorem initRing_book_cbCap (s : State) :
    (initRing s).book.cbCap = s.book.cbCap := rfl
@[simp] theorem initRing_book_cbCursor (s : State) :
    (initRing s).book.cbCursor = 0 := rfl
@[simp] theorem initRing_book_cbValid (s : State) :
    (initRing s).book.cbValid = 0 := rfl
@[simp] theorem initRing_book_cbFed (s : State) :
    (initRing s).book.cbFed = 0 := rfl
@[simp] theorem initRing_book_cbEntryBytes (s : State) :
    (initRing s).book.cbEntryBytes = s.book.cbEntryBytes := rfl
@[simp] theorem initRing_book_cbLine (s : State) :
    (initRing s).book.cbLine = s.book.cbLine := rfl
@[simp] theorem initRing_book_feedAdd (s : State) :
    (initRing s).book.feedAdd = 0 := rfl
@[simp] theorem initRing_book_feedReal (s : State) :
    (initRing s).book.feedReal = 0 := rfl
@[simp] theorem initRing_book_accJ0 (s : State) :
    (initRing s).book.accJ0 = s.book.accJ0 := rfl
@[simp] theorem initRing_book_accN (s : State) :
    (initRing s).book.accN = s.book.accN := rfl
@[simp] theorem initRing_book_layCb (s : State) :
    (initRing s).book.layCb = s.book.layCb := rfl
@[simp] theorem initRing_book_layKs (s : State) :
    (initRing s).book.layKs = s.book.layKs := rfl
@[simp] theorem initRing_book_layAcc (s : State) :
    (initRing s).book.layAcc = s.book.layAcc := rfl
@[simp] theorem initRing_book_layTotal (s : State) :
    (initRing s).book.layTotal = s.book.layTotal := rfl
@[simp] theorem initRing_book_layKcpad (s : State) :
    (initRing s).book.layKcpad = s.book.layKcpad := rfl

/-! ### feedRing -/

@[simp] theorem feedRing_params (s : State) (n : Nat) : (feedRing n s).params = s.params := rfl
@[simp] theorem feedRing_status (s : State) (n : Nat) : (feedRing n s).status = { s.status with cbState := .streaming, accValid := false } := rfl
@[simp] theorem feedRing_resultLo (s : State) (n : Nat) : (feedRing n s).resultLo = s.resultLo := rfl
@[simp] theorem feedRing_resultHi (s : State) (n : Nat) : (feedRing n s).resultHi = s.resultHi := rfl
@[simp] theorem feedRing_cause (s : State) (n : Nat) : (feedRing n s).cause = s.cause := rfl
@[simp] theorem feedRing_causeInfo (s : State) (n : Nat) : (feedRing n s).causeInfo = s.causeInfo := rfl
@[simp] theorem feedRing_cfg (s : State) (n : Nat) : (feedRing n s).cfg = s.cfg := rfl
@[simp] theorem feedRing_ctx (s : State) (n : Nat) : (feedRing n s).ctx = s.ctx := rfl
@[simp] theorem feedRing_mem (s : State) (n : Nat) : (feedRing n s).mem = s.mem.applyStores (cbFeedStores n s) := rfl
@[simp] theorem feedRing_freeDraws (s : State) (n : Nat) : (feedRing n s).freeDraws = s.freeDraws := rfl
@[simp] theorem feedRing_hostQueue (s : State) (n : Nat) : (feedRing n s).hostQueue = s.hostQueue := rfl
@[simp] theorem feedRing_reply (s : State) (n : Nat) : (feedRing n s).reply = s.reply := rfl
@[simp] theorem feedRing_book_decG (s : State) (n : Nat) :
    (feedRing n s).book.decG = s.book.decG := rfl
@[simp] theorem feedRing_book_decCount (s : State) (n : Nat) :
    (feedRing n s).book.decCount = s.book.decCount := rfl
@[simp] theorem feedRing_book_decRstride (s : State) (n : Nat) :
    (feedRing n s).book.decRstride = s.book.decRstride := rfl
@[simp] theorem feedRing_book_subNout (s : State) (n : Nat) :
    (feedRing n s).book.subNout = s.book.subNout := rfl
@[simp] theorem feedRing_book_subLead (s : State) (n : Nat) :
    (feedRing n s).book.subLead = s.book.subLead := rfl
@[simp] theorem feedRing_book_subNent (s : State) (n : Nat) :
    (feedRing n s).book.subNent = s.book.subNent := rfl
@[simp] theorem feedRing_book_cbCap (s : State) (n : Nat) :
    (feedRing n s).book.cbCap = s.book.cbCap := rfl
@[simp] theorem feedRing_book_cbCursor (s : State) (n : Nat) :
    (feedRing n s).book.cbCursor = BitVec.ofInt 32 (s.feedSlot (s.feedCount n)) := rfl
@[simp] theorem feedRing_book_cbValid (s : State) (n : Nat) :
    (feedRing n s).book.cbValid = BitVec.ofInt 32 (s.book.cbFed.toInt + s.feedCount n - s.feedKeepFrom n) := rfl
@[simp] theorem feedRing_book_cbFed (s : State) (n : Nat) :
    (feedRing n s).book.cbFed = BitVec.ofInt 32 (s.book.cbFed.toInt + s.feedCount n) := rfl
@[simp] theorem feedRing_book_cbEntryBytes (s : State) (n : Nat) :
    (feedRing n s).book.cbEntryBytes = s.book.cbEntryBytes := rfl
@[simp] theorem feedRing_book_cbLine (s : State) (n : Nat) :
    (feedRing n s).book.cbLine = s.book.cbLine := rfl
@[simp] theorem feedRing_book_feedAdd (s : State) (n : Nat) :
    (feedRing n s).book.feedAdd = BitVec.ofInt 32 (s.feedCount n) := rfl
@[simp] theorem feedRing_book_feedReal (s : State) (n : Nat) :
    (feedRing n s).book.feedReal = BitVec.ofNat 32 (s.feedReal n) := rfl
@[simp] theorem feedRing_book_accJ0 (s : State) (n : Nat) :
    (feedRing n s).book.accJ0 = s.book.accJ0 := rfl
@[simp] theorem feedRing_book_accN (s : State) (n : Nat) :
    (feedRing n s).book.accN = s.book.accN := rfl
@[simp] theorem feedRing_book_layCb (s : State) (n : Nat) :
    (feedRing n s).book.layCb = s.book.layCb := rfl
@[simp] theorem feedRing_book_layKs (s : State) (n : Nat) :
    (feedRing n s).book.layKs = s.book.layKs := rfl
@[simp] theorem feedRing_book_layAcc (s : State) (n : Nat) :
    (feedRing n s).book.layAcc = s.book.layAcc := rfl
@[simp] theorem feedRing_book_layTotal (s : State) (n : Nat) :
    (feedRing n s).book.layTotal = s.book.layTotal := rfl
@[simp] theorem feedRing_book_layKcpad (s : State) (n : Nat) :
    (feedRing n s).book.layKcpad = s.book.layKcpad := rfl

/-! ### clearStaging -/

@[simp] theorem clearStaging_params (s : State) : (clearStaging s).params = s.params := rfl
@[simp] theorem clearStaging_status (s : State) : (clearStaging s).status = { s.status with kpadValid := true, ksValid := false, accValid := false } := rfl
@[simp] theorem clearStaging_resultLo (s : State) : (clearStaging s).resultLo = s.resultLo := rfl
@[simp] theorem clearStaging_resultHi (s : State) : (clearStaging s).resultHi = s.resultHi := rfl
@[simp] theorem clearStaging_cause (s : State) : (clearStaging s).cause = s.cause := rfl
@[simp] theorem clearStaging_causeInfo (s : State) : (clearStaging s).causeInfo = s.causeInfo := rfl
@[simp] theorem clearStaging_cfg (s : State) : (clearStaging s).cfg = s.cfg := rfl
@[simp] theorem clearStaging_ctx (s : State) : (clearStaging s).ctx = s.ctx := rfl
@[simp] theorem clearStaging_book (s : State) : (clearStaging s).book = s.book := rfl
@[simp] theorem clearStaging_mem (s : State) : (clearStaging s).mem = s.mem.applyStores (ksClearStores s) := rfl
@[simp] theorem clearStaging_freeDraws (s : State) : (clearStaging s).freeDraws = s.freeDraws := rfl
@[simp] theorem clearStaging_hostQueue (s : State) : (clearStaging s).hostQueue = s.hostQueue := rfl
@[simp] theorem clearStaging_reply (s : State) : (clearStaging s).reply = s.reply := rfl

/-! ### stageKernel -/

@[simp] theorem stageKernel_params (s : State) : (stageKernel s).params = s.params := rfl
@[simp] theorem stageKernel_status (s : State) : (stageKernel s).status = { s.status with ksValid := true, accValid := false } := rfl
@[simp] theorem stageKernel_resultLo (s : State) : (stageKernel s).resultLo = s.resultLo := rfl
@[simp] theorem stageKernel_resultHi (s : State) : (stageKernel s).resultHi = s.resultHi := rfl
@[simp] theorem stageKernel_cause (s : State) : (stageKernel s).cause = s.cause := rfl
@[simp] theorem stageKernel_causeInfo (s : State) : (stageKernel s).causeInfo = s.causeInfo := rfl
@[simp] theorem stageKernel_cfg (s : State) : (stageKernel s).cfg = s.cfg := rfl
@[simp] theorem stageKernel_ctx (s : State) : (stageKernel s).ctx = s.ctx := rfl
@[simp] theorem stageKernel_book (s : State) : (stageKernel s).book = s.book := rfl
@[simp] theorem stageKernel_mem (s : State) : (stageKernel s).mem = s.mem.applyStores (kstageStores s) := rfl
@[simp] theorem stageKernel_freeDraws (s : State) : (stageKernel s).freeDraws = s.freeDraws := rfl
@[simp] theorem stageKernel_hostQueue (s : State) : (stageKernel s).hostQueue = s.hostQueue := rfl
@[simp] theorem stageKernel_reply (s : State) : (stageKernel s).reply = s.reply := rfl

/-! ### computeTile -/

@[simp] theorem computeTile_params (s : State) (n : Nat) : (computeTile n s).params = s.params := rfl
@[simp] theorem computeTile_status (s : State) (n : Nat) : (computeTile n s).status = { s.status with accValid := true, accOvf := s.status.accOvf || s.tileOverflows n } := rfl
@[simp] theorem computeTile_resultLo (s : State) (n : Nat) : (computeTile n s).resultLo = s.resultLo := rfl
@[simp] theorem computeTile_resultHi (s : State) (n : Nat) : (computeTile n s).resultHi = s.resultHi := rfl
@[simp] theorem computeTile_cause (s : State) (n : Nat) : (computeTile n s).cause = s.cause := rfl
@[simp] theorem computeTile_causeInfo (s : State) (n : Nat) : (computeTile n s).causeInfo = s.causeInfo := rfl
@[simp] theorem computeTile_cfg (s : State) (n : Nat) : (computeTile n s).cfg = s.cfg := rfl
@[simp] theorem computeTile_ctx (s : State) (n : Nat) : (computeTile n s).ctx = s.ctx := rfl
@[simp] theorem computeTile_book (s : State) (n : Nat) : (computeTile n s).book = { s.book with accJ0 := s.ctx.j0, accN := BitVec.ofNat 32 n } := rfl
@[simp] theorem computeTile_mem (s : State) (n : Nat) : (computeTile n s).mem = s.mem.applyStores (macTileStores n s) := rfl
@[simp] theorem computeTile_freeDraws (s : State) (n : Nat) : (computeTile n s).freeDraws = s.freeDraws := rfl
@[simp] theorem computeTile_hostQueue (s : State) (n : Nat) : (computeTile n s).hostQueue = s.hostQueue := rfl
@[simp] theorem computeTile_reply (s : State) (n : Nat) : (computeTile n s).reply = s.reply := rfl

/-! ### writeTile -/

@[simp] theorem writeTile_params (s : State) : (writeTile s).params = s.params := rfl
@[simp] theorem writeTile_status (s : State) : (writeTile s).status = { s.status with accValid := false } := rfl
@[simp] theorem writeTile_resultLo (s : State) : (writeTile s).resultLo = s.resultLo := rfl
@[simp] theorem writeTile_resultHi (s : State) : (writeTile s).resultHi = s.resultHi := rfl
@[simp] theorem writeTile_cause (s : State) : (writeTile s).cause = s.cause := rfl
@[simp] theorem writeTile_causeInfo (s : State) : (writeTile s).causeInfo = s.causeInfo := rfl
@[simp] theorem writeTile_cfg (s : State) : (writeTile s).cfg = s.cfg := rfl
@[simp] theorem writeTile_ctx (s : State) : (writeTile s).ctx = s.ctx := rfl
@[simp] theorem writeTile_book (s : State) : (writeTile s).book = s.book := rfl
@[simp] theorem writeTile_mem (s : State) : (writeTile s).mem = s.mem.applyStores (reqWriteStores s) := rfl
@[simp] theorem writeTile_freeDraws (s : State) : (writeTile s).freeDraws = s.freeDraws := rfl
@[simp] theorem writeTile_hostQueue (s : State) : (writeTile s).hostQueue = s.hostQueue := rfl
@[simp] theorem writeTile_reply (s : State) : (writeTile s).reply = s.reply := rfl

/-! ### The fields of STATUS after `close` and after the invalidations of a CTX write -/

@[simp] theorem status_close_cbState (st : Status) : (st.close).cbState = .uninitialized := rfl
@[simp] theorem status_close_callOpen (st : Status) : (st.close).callOpen = false := rfl
@[simp] theorem status_close_decValid (st : Status) : (st.close).decValid = false := rfl
@[simp] theorem status_close_kpadValid (st : Status) : (st.close).kpadValid = false := rfl
@[simp] theorem status_close_ksValid (st : Status) : (st.close).ksValid = false := rfl
@[simp] theorem status_close_accValid (st : Status) : (st.close).accValid = false := rfl
@[simp] theorem status_close_err (st : Status) : (st.close).err = st.err := rfl
@[simp] theorem status_close_underrun (st : Status) : (st.close).underrun = st.underrun := rfl
@[simp] theorem status_close_accOvf (st : Status) : (st.close).accOvf = st.accOvf := rfl
@[simp] theorem status_dropIc_cbState (st : Status) : (st.dropIc).cbState = .uninitialized := rfl
@[simp] theorem status_dropIc_callOpen (st : Status) : (st.dropIc).callOpen = st.callOpen := rfl
@[simp] theorem status_dropIc_decValid (st : Status) : (st.dropIc).decValid = st.decValid := rfl
@[simp] theorem status_dropIc_kpadValid (st : Status) : (st.dropIc).kpadValid = st.kpadValid := rfl
@[simp] theorem status_dropIc_ksValid (st : Status) : (st.dropIc).ksValid = false := rfl
@[simp] theorem status_dropIc_accValid (st : Status) : (st.dropIc).accValid = false := rfl
@[simp] theorem status_dropIc_err (st : Status) : (st.dropIc).err = st.err := rfl
@[simp] theorem status_dropIc_underrun (st : Status) : (st.dropIc).underrun = st.underrun := rfl
@[simp] theorem status_dropIc_accOvf (st : Status) : (st.dropIc).accOvf = st.accOvf := rfl
@[simp] theorem status_dropM_cbState (st : Status) : (st.dropM).cbState = st.cbState := rfl
@[simp] theorem status_dropM_callOpen (st : Status) : (st.dropM).callOpen = st.callOpen := rfl
@[simp] theorem status_dropM_decValid (st : Status) : (st.dropM).decValid = st.decValid := rfl
@[simp] theorem status_dropM_kpadValid (st : Status) : (st.dropM).kpadValid = st.kpadValid := rfl
@[simp] theorem status_dropM_ksValid (st : Status) : (st.dropM).ksValid = false := rfl
@[simp] theorem status_dropM_accValid (st : Status) : (st.dropM).accValid = false := rfl
@[simp] theorem status_dropM_err (st : Status) : (st.dropM).err = st.err := rfl
@[simp] theorem status_dropM_underrun (st : Status) : (st.dropM).underrun = st.underrun := rfl
@[simp] theorem status_dropM_accOvf (st : Status) : (st.dropM).accOvf = st.accOvf := rfl
@[simp] theorem status_dropRes_cbState (st : Status) : (st.dropRes).cbState = .uninitialized := rfl
@[simp] theorem status_dropRes_callOpen (st : Status) : (st.dropRes).callOpen = st.callOpen := rfl
@[simp] theorem status_dropRes_decValid (st : Status) : (st.dropRes).decValid = st.decValid := rfl
@[simp] theorem status_dropRes_kpadValid (st : Status) : (st.dropRes).kpadValid = st.kpadValid := rfl
@[simp] theorem status_dropRes_ksValid (st : Status) : (st.dropRes).ksValid = st.ksValid := rfl
@[simp] theorem status_dropRes_accValid (st : Status) : (st.dropRes).accValid = false := rfl
@[simp] theorem status_dropRes_err (st : Status) : (st.dropRes).err = st.err := rfl
@[simp] theorem status_dropRes_underrun (st : Status) : (st.dropRes).underrun = st.underrun := rfl
@[simp] theorem status_dropRes_accOvf (st : Status) : (st.dropRes).accOvf = st.accOvf := rfl
@[simp] theorem status_dropJ0_cbState (st : Status) : (st.dropJ0).cbState = st.cbState := rfl
@[simp] theorem status_dropJ0_callOpen (st : Status) : (st.dropJ0).callOpen = st.callOpen := rfl
@[simp] theorem status_dropJ0_decValid (st : Status) : (st.dropJ0).decValid = st.decValid := rfl
@[simp] theorem status_dropJ0_kpadValid (st : Status) : (st.dropJ0).kpadValid = st.kpadValid := rfl
@[simp] theorem status_dropJ0_ksValid (st : Status) : (st.dropJ0).ksValid = st.ksValid := rfl
@[simp] theorem status_dropJ0_accValid (st : Status) : (st.dropJ0).accValid = false := rfl
@[simp] theorem status_dropJ0_err (st : Status) : (st.dropJ0).err = st.err := rfl
@[simp] theorem status_dropJ0_underrun (st : Status) : (st.dropJ0).underrun = st.underrun := rfl
@[simp] theorem status_dropJ0_accOvf (st : Status) : (st.dropJ0).accOvf = st.accOvf := rfl

end Sys2Proof.Machine
end

