-- ==== Sys2Proof/Laws/Steps.lean ====
section
/-! SUPPORT. What a step and each host transaction can do. -/

namespace Sys2Proof.Machine

/-- What one step can be: idle, or one transaction performed on the state without it. -/
theorem step_cases (s : State) :
    (s.hostQueue = [] ∧ step s = .next s) ∨
    ∃ t rest, s.hostQueue = t :: rest ∧ step s = transact t { s with hostQueue := rest } := by
  unfold step nextTransaction
  cases h : s.hostQueue with
  | nil => exact .inl ⟨rfl, rfl⟩
  | cons t rest => exact .inr ⟨t, rest, rfl, rfl⟩

/-- What a transaction that goes on can leave (30_encoding.md R140, 70_reset_and_hazards.md R430). -/
theorem transact_cases {x : HostTxn} {s t : State} (h : transact x s = .next t) :
    (∃ w i, x = .regWrite 0x01 w ∧ decode w = .ok i ∧ exec i s = .next t) ∨
    (∃ w e, x = .regWrite 0x01 w ∧ decode w = .error e ∧
      t = s.raiseErr { cause := .command, info := w.toNat % 2 ^ 16 }) ∨
    (∃ no w, x = .regWrite no w ∧ no ≠ 0x01 ∧ t = s.writeReg no w) ∨
    (∃ no, x = .regRead no ∧ t = { s with reply := .word (s.readReg no) }) ∨
    (∃ addr bytes, x = .memStore addr bytes ∧ addr + bytes.length ≤ Config.addressSpace ∧
      (∀ i < bytes.length, s.ownedByCall (addr + i) = false) ∧
      t = { s with mem := s.mem.writeBytes addr bytes }) ∨
    (∃ addr len, x = .memLoad addr len ∧ t = { s with reply := .bytes (s.mem.readBytes addr len) }) ∨
    (x = .reset ∧ t = s.hardReset) := by
  cases x with
  | regWrite no w =>
    simp only [transact, regWrite] at h
    split at h
    · rename_i h1
      subst h1
      unfold runCommandWord at h
      split at h
      · rename_i i hi
        exact .inl ⟨w, i, rfl, hi, h⟩
      · rename_i e he
        cases h
        exact .inr (.inl ⟨w, e, rfl, he, rfl⟩)
    · rename_i h1
      cases h
      exact .inr (.inr (.inl ⟨no, w, rfl, h1, rfl⟩))
  | regRead no =>
    cases h
    exact .inr (.inr (.inr (.inl ⟨no, rfl, rfl⟩)))
  | memStore addr bytes =>
    simp only [transact, hostStore] at h
    split at h
    · cases h
    · rename_i h1
      split at h
      · cases h
      · rename_i h2
        cases h
        exact .inr (.inr (.inr (.inr (.inl ⟨addr, bytes, rfl, by omega, by simpa using h2, rfl⟩))))
  | memLoad addr len =>
    simp only [transact, hostLoad] at h
    split at h
    · cases h
    · cases h
      exact .inr (.inr (.inr (.inr (.inr (.inl ⟨addr, len, rfl, rfl⟩)))))
  | reset =>
    cases h
    exact .inr (.inr (.inr (.inr (.inr (.inr ⟨rfl, rfl⟩)))))

/-- What a host write to a register other than CMD can leave (10_state.md R56 to R59). -/
theorem writeReg_cases (s : State) (no : Nat) (w : Word) :
    s.writeReg no w = { s with status := s.status.clearSticky w } ∨
    s.writeReg no w = s.writeIc w ∨ s.writeReg no w = s.writeM w ∨ s.writeReg no w = s.writeRes w ∨
    s.writeReg no w = s.writeJ0 w ∨ (∃ c, s.writeReg no w = s.writeCfg c) ∨ s.writeReg no w = s := by
  unfold State.writeReg
  split
  · exact .inl rfl
  · exact .inr (.inl rfl)
  · exact .inr (.inr (.inl rfl))
  · exact .inr (.inr (.inr (.inl rfl)))
  · exact .inr (.inr (.inr (.inr (.inl rfl))))
  · split
    · exact .inr (.inr (.inr (.inr (.inr (.inl ⟨_, rfl⟩)))))
    · exact .inr (.inr (.inr (.inr (.inr (.inr rfl)))))

end Sys2Proof.Machine
end

