-- ==== Sys2Proof/Tests/Slice0.lean ====
section
/-! SUPPORT. The model's own tests: ill-formed terms refused, words decoded, one step of each command with
the results the spec's worked examples give, and for every statement with hypotheses a state that meets
them. -/

namespace Sys2Proof.Tests

open Sys2Proof.Machine

-- One theorem is elaborated after the other: a thread for each would pass the memory limit of the check.
set_option Elab.async false

/-! ### Helpers -/

/-- The state a command leaves; the state itself if it does not go on. -/
def after (i : Instr) (s : State) : State :=
  match exec i s with
  | .next t => t
  | .fault _ => s
  | .refused _ => s

/-- The command goes on. -/
def runs (i : Instr) (s : State) : Bool :=
  match exec i s with
  | .next _ => true
  | .fault _ => false
  | .refused _ => false

theorem exec_after {i : Instr} {s : State} (h : runs i s = true) : exec i s = .next (after i s) := by
  unfold runs at h
  unfold after
  split at h <;> simp_all

/-- Several commands, one after the other. -/
def afterAll (l : List Instr) (s : State) : State := l.foldl (fun s i => after i s) s

/-- The bytes from an address on. -/
def bytesAt (s : State) (a n : Nat) : List Nat := (s.mem.readBytes a n).map BitVec.toNat

/-- `n` signed 64-bit accumulator entries. -/
def accumulators (s : State) (n : Nat) : List Int := (List.range n).map fun e : Nat => s.loadAcc e

/-- All strides and dilations 1 (10_state.md R42). -/
def unitCfg : Cfg :=
  { Cfg.atReset with
    inPtr := 0x1000, kerPtr := 0x1200, biasPtr := 0x1300, outPtr := 0x1400, scratchPtr := 0x2000
    inC := 1, chMult := 1, strideX := 1, strideY := 1, dilX := 1, dilY := 1 }

/-- A reset machine with a configuration and memory contents. -/
def machine (c : Cfg) (input kernel bias : List Byte) : State :=
  { State.reset with
    cfg := c
    mem := ((Memory.empty.writeBytes 0x1000 input).writeBytes 0x1200 kernel).writeBytes 0x1300 bias }

/-- The running example of R192, R194, R250 and R280: I8, channel-first, IN(0, y, x) = 4y + x + 1, a 3×3
kernel of ones, pads 1, bias 3, BIAS_SHIFT 1, ACC_SHIFT 2. -/
def example4 : State :=
  machine
    { unitCfg with
      layout := 1, prec := 1, inH := 4, inW := 4, outH := 4, outW := 4, kH := 3, kW := 3, padX := 1
      padY := 1, biasShift := 1, accShift := 2 }
    [1, 2, 3, 4, 5, 6, 7, 8, 9, 10, 11, 12, 13, 14, 15, 16] [1, 1, 1, 1, 1, 1, 1, 1, 1] [3]

/-- The running example with its call open, decomposed, primed and fed for the first tile. -/
def example4Fed : State :=
  afterAll [.callBegin, .decomp, .ksClear, .cbInit, .kstage, .cbFeed 2] example4

/-- The worked example of R171 and R351: F32, channel-first, 8×8×1 to 8×8, 3×3, pads 1. -/
def example8 : State :=
  machine
    { unitCfg with
      layout := 1, prec := 0, inH := 8, inW := 8, outH := 8, outW := 8, kH := 3, kW := 3, padX := 1
      padY := 1 } [] [] []

/-! ### Well-formed terms -/

theorem test_cbFeed_256_ill_formed : wellFormed (.cbFeed 256) = false := by decide
theorem test_macTile_256_ill_formed : wellFormed (.macTile 256) = false := by decide
theorem test_operand_255_well_formed :
    wellFormed (.cbFeed 255) = true ∧ wellFormed (.macTile 255) = true := by decide

/-! ### Decoding: words written out from R141, R143, R149 -/

/-- {RSV = 0, N = 0, OPC = 0x04} is CONV. -/
theorem test_decode_conv : decode 0b00000000000000000000000000000100 = .ok .conv := by decide
/-- {RSV = 0, N = 0, OPC = 0x08} is DECOMP. -/
theorem test_decode_decomp : decode 0b00000000000000000000000000001000 = .ok .decomp := by decide
/-- {RSV = 0, N = 5, OPC = 0x11} is CB_FEED 5. -/
theorem test_decode_cbFeed : decode 0b00000000000000000000010100010001 = .ok (.cbFeed 5) := by decide
/-- {RSV = 0, N = 0, OPC = 0x19} is KSTAGE. -/
theorem test_decode_kstage : decode 0b00000000000000000000000000011001 = .ok .kstage := by decide
/-- {RSV = 0, N = 255, OPC = 0x20} is MAC_TILE 255. -/
theorem test_decode_macTile : decode 0b00000000000000001111111100100000 = .ok (.macTile 255) := by decide
/-- {RSV = 0, N = 0, OPC = 0x28} is REQ_WRITE. -/
theorem test_decode_reqWrite : decode 0b00000000000000000000000000101000 = .ok .reqWrite := by decide
/-- R149: REQ_WRITE with N = 1, CONV with RSV = 1, opcode 5. -/
theorem test_decode_illegal :
    decode 0x00000128 = .error .operandNotAllowed ∧ decode 0x00010004 = .error .reservedBits ∧
      decode 0x00000005 = .error .unknownOpcode := by decide
theorem test_table_word : decodeTableWord 32 0x00000211 = some (.cbFeed 2) := by decide

/-! ### One step of each command -/

/-- R350: NOP clears CAUSE and CAUSE_INFO of the failure before it, and leaves ERR (bit 8) set. -/
theorem test_nop :
    let s := after .nop (after .callEnd State.reset)
    (s.cause, s.causeInfo, s.resultValue, s.readReg 0x02) = (0, 0, 0, 0x100) := by decide +kernel

/-- R171: the worked example gives 400 = 0x190. -/
theorem test_getsize : (after .getsize example8).resultLo = 0x190 := by decide +kernel

/-- R351: the registers BEGIN writes in its worked example. -/
theorem test_begin :
    let s := after .callBegin example8
    ([0x40, 0x44, 0x45, 0x50, 0x51, 0x52, 0x53, 0x54].map s.readReg, s.readReg 0x02) =
      ([4, 40, 10, 64, 224, 272, 400, 4], 0x004) := by decide +kernel

/-- R354, R36: END leaves no state flag set; without an open call it is E_SEQ 1 (cause 16). -/
theorem test_end :
    ((after .callEnd (after .callBegin example8)).readReg 0x02, (after .callEnd example8).cause,
      (after .callEnd example8).causeInfo) = (0, 16, 1) := by decide +kernel

/-- R330: DIL_Y = 2, STRIDE_Y = 3 gives g = 1, COUNT = 2, RS = 3. -/
theorem test_decomp :
    let c := { example8.cfg with dilY := 2, strideY := 3 }
    [0x38, 0x39, 0x3A].map (afterAll [.callBegin, .decomp] { example8 with cfg := c }).readReg =
      [1, 2, 3] := by decide +kernel

/-- R192: CB_INIT of the running example: SUB_NOUT, SUB_LEAD, SUB_NENT, CB_STATE. -/
theorem test_cb_init :
    let s := afterAll [.callBegin, .decomp, .cbInit] example4
    ([0x3B, 0x3C, 0x3D].map s.readReg, s.status.cbState) = ([4, 1, 6], .primed) := by decide +kernel

/-- R194: the first CB_FEED 2 of the running example: cursor, valid, fed, added, real. -/
theorem test_cb_feed_first :
    [0x41, 0x42, 0x43, 0x49, 0x4A].map example4Fed.readReg = [0, 4, 4, 4, 3] := by decide +kernel

/-- R194: the second CB_FEED 2, with CTX_J0 = 2. -/
theorem test_cb_feed_second :
    [0x41, 0x42, 0x43, 0x49, 0x4A].map
      (after (.cbFeed 2) (example4Fed.writeReg 0x33 2)).readReg = [2, 4, 6, 2, 1] := by decide +kernel

/-- R231: ASYM8, 3×3, KER_ZB = -5: twelve bytes 0x05, then four bytes 0. -/
theorem test_ks_clear :
    let c := { example4.cfg with prec := 3, kerZb := -5, outMax := 1 }
    let s := afterAll [.callBegin, .ksClear] { example4 with cfg := c }
    bytesAt s (0x2000 + s.book.layKs.toNat) 16 = [5, 5, 5, 5, 5, 5, 5, 5, 5, 5, 5, 5, 0, 0, 0, 0] := by
  decide +kernel

/-- R232: I8, K_H = 1, K_W = 3, DIL_X = 2, kernel (7, -2, 9): line 0 is 7, 0, -2, 0, 9, 0, 0, 0. -/
theorem test_kstage :
    let s := afterAll [.callBegin, .ksClear, .kstage]
      (machine { unitCfg with
        layout := 1, prec := 1, inH := 1, inW := 5, outH := 1, outW := 1, kH := 1, kW := 3, dilX := 2 }
        [] [7, 0xFE, 9] [])
    bytesAt s (0x2000 + s.book.layKs.toNat) 8 = [7, 0, 0xFE, 0, 9, 0, 0, 0] := by decide +kernel

/-- R250: MAC_TILE 2 of the running example writes 20, 30, 36, 28, 39, 60, 69, 51. -/
theorem test_mac_tile :
    accumulators (after (.macTile 2) example4Fed) 8 = [20, 30, 36, 28, 39, 60, 69, 51] := by
  decide +kernel

/-- R280: REQ_WRITE of that tile writes 5, 8, 9, 7, 10, 15, 17, 13. -/
theorem test_req_write :
    bytesAt (afterAll [.macTile 2, .reqWrite] example4Fed) 0x1400 8 = [5, 8, 9, 7, 10, 15, 17, 13] := by
  decide +kernel

/-- R355 by hand on a 1×1 input 5, kernel 3, bias 1 shifted by 1: 5 × 3 + 2 = 17, shifted right by 2 with
rounding: 4.25 gives 4. -/
theorem test_conv :
    let s := after .conv (machine { unitCfg with
      layout := 1, prec := 1, inH := 1, inW := 1, outH := 1, outW := 1, kH := 1, kW := 1
      biasShift := 1, accShift := 2 } [5] [3] [1])
    (bytesAt s 0x1400 1, s.resultValue, s.readReg 0x02) = ([4], 0, 0) := by decide +kernel

/-! ### States that meet the hypotheses of the statements -/

/-- I8, channel-first, input 2×1×1 of (5, 7), kernel 2×1 of (3, 2), bias 1, PAD_Y 1, output 2×1. -/
def small : State :=
  machine { unitCfg with
    layout := 1, prec := 1, inH := 2, inW := 1, outH := 2, outW := 1, kH := 2, kW := 1, padY := 1 }
    [5, 7] [3, 2] [1]

/-- The small call, open. -/
def opened : State := after .callBegin small

/-- The small call with its ring primed and its kernel staged. -/
def primed : State := afterAll [.decomp, .ksClear, .cbInit, .kstage] opened

/-- The small call, fed for a tile of two outputs. -/
def fed : State := after (.cbFeed 2) primed

/-- The small call with the tile's accumulators computed. -/
def computed : State := after (.macTile 2) fed

/-- A host that writes a command word next. -/
def sends (w : Word) (s : State) : State := { s with hostQueue := [.regWrite 0x01 w] }

/-- PC8 with two output channels, whose shifts are 31 and 32. -/
def badShift : State :=
  let s := machine { unitCfg with
    layout := 1, prec := 4, inH := 1, inW := 1, outH := 1, outW := 1, kH := 1, kW := 1, chMult := 2
    multPtr := 0x1500, shiftPtr := 0x1600 } [] [] []
  { s with mem := s.mem.writeBytes 0x1600 [31, 0, 0, 0, 32] }

/-- S8S16 whose bias is the largest s64, so that adding the product 1 overflows. -/
def overflowing : State :=
  machine { unitCfg with
    layout := 1, prec := 5, inH := 1, inW := 1, outH := 1, outW := 1, kH := 1, kW := 1
    multPtr := 0x1500, shiftPtr := 0x1600 }
    [1, 0] [1] [0xFF, 0xFF, 0xFF, 0xFF, 0xFF, 0xFF, 0xFF, 0x7F]

/-- The small call with the output on top of the input. -/
def overlapping : State := { small with cfg := { small.cfg with outPtr := 0x1001 } }

/-- The small call with the scratch region wrapping past the last address. -/
def misplaced : State := { small with cfg := { small.cfg with scratchPtr := 0xFFFFFFF8 } }

/-- The state a step leaves. -/
def stepAfter (s : State) : State :=
  match step s with
  | .next t => t
  | .fault _ => s
  | .refused _ => s

theorem step_after {s : State} {w : Word} {i : Instr} (hq : s.hostQueue = [.regWrite 0x01 w])
    (hd : decode w = .ok i) (h : runs i { s with hostQueue := [] } = true) :
    step s = .next (after i { s with hostQueue := [] }) := by
  simp only [step, nextTransaction, hq, transact, regWrite, runCommandWord, hd, if_true]
  exact exec_after h

theorem inv_of_facts {s : State} (h1 : s.params.ok = true ∧ s.mem.wf = true)
    (h2 : (s.status.decValid = true → s.status.callOpen = true) ∧
      (s.status.kpadValid = true → s.status.callOpen = true) ∧
      (s.status.cbState ≠ .uninitialized → s.status.decValid = true) ∧
      (s.status.ksValid = true → s.status.kpadValid = true) ∧
      (s.status.accValid = true → s.status.ksValid = true ∧ s.status.cbState ≠ .uninitialized))
    (h3 : checkShape s.cfg = none ∧ checkCapacity s.params s.cfg = none ∧ checkArgs s.cfg = none ∧
      s.cfg.regionsPlaced s.params = true ∧ s.cfg.regionsDisjoint s.params = true)
    (h4 : s.book.cbCap.toInt = s.cfg.ringCapacity s.params ∧
      s.book.cbEntryBytes.toInt = s.cfg.entryBytes ∧ s.book.cbLine.toInt = s.cfg.axes.line ∧
      s.book.layCb.toInt = Cfg.offCb s.params ∧ s.book.layKs.toInt = s.cfg.offKs s.params ∧
      s.book.layAcc.toInt = s.cfg.offAcc s.params ∧
      s.book.layTotal.toInt = s.cfg.scratchTotal s.params ∧
      s.book.layKcpad.toInt = s.cfg.kernelLine s.params)
    (h5 : s.book.decG.toInt = s.cfg.axes.commonDivisor ∧
      s.book.decCount.toInt = s.cfg.axes.classCount ∧
      s.book.decRstride.toInt = s.cfg.axes.reducedStride)
    (h6 : (0 ≤ s.ctx.ic.toInt ∧ s.ctx.ic.toInt < s.cfg.inC.toInt) ∧
      (0 ≤ s.ctx.res.toInt ∧ s.ctx.res.toInt < s.cfg.axes.classCount) ∧
      s.book.subNout.toInt = s.cfg.axes.subOutputs s.ctx.res.toInt ∧
      s.book.subLead.toInt = s.cfg.axes.subLead s.ctx.res.toInt ∧
      s.book.subNent.toInt = s.cfg.axes.subEntries s.ctx.res.toInt ∧
      s.book.cbCursor.toInt = s.book.cbFed.toInt % s.book.cbCap.toInt ∧
      (0 ≤ s.book.cbValid.toInt ∧ s.book.cbValid.toInt ≤ s.book.cbCap.toInt ∧
        s.book.cbValid.toInt ≤ s.book.cbFed.toInt) ∧
      s.book.cbFed.toInt ≤ s.cfg.axes.subEntries s.ctx.res.toInt)
    (h7 : 0 ≤ s.ctx.m.toInt ∧ s.ctx.m.toInt < s.cfg.chMult.toInt)
    (h8 : s.status.accValid = true → (s.book.accJ0 = s.ctx.j0 ∧ 0 ≤ s.book.accJ0.toInt) ∧
      (1 ≤ s.book.accN.toInt ∧ s.book.accN.toInt ≤ s.params.rIter) ∧
      s.book.accJ0.toInt + s.book.accN.toInt ≤ s.book.subNout.toInt) : Inv s where
  params := h1.1
  mem := h1.2
  flags := ⟨h2.1, h2.2.1, h2.2.2.1, h2.2.2.2.1, h2.2.2.2.2⟩
  config := fun _ => ⟨h3.1, h3.2.1, h3.2.2.1, h3.2.2.2.1, h3.2.2.2.2⟩
  layout := fun _ => ⟨h4.1, h4.2.1, h4.2.2.1, h4.2.2.2.1, h4.2.2.2.2.1, h4.2.2.2.2.2.1,
    h4.2.2.2.2.2.2.1, h4.2.2.2.2.2.2.2⟩
  decomposition := fun _ => ⟨h5.1, h5.2.1, h5.2.2⟩
  ring := fun _ => ⟨h6.1, h6.2.1, h6.2.2.1, h6.2.2.2.1, h6.2.2.2.2.1, h6.2.2.2.2.2.1,
    h6.2.2.2.2.2.2.1, h6.2.2.2.2.2.2.2⟩
  kernel := fun _ => ⟨h6.1.1, h6.1.2, h7.1, h7.2⟩
  tile := fun h => ⟨(h8 h).1, (h8 h).2.1, (h8 h).2.2⟩

theorem inv_primed : Inv primed := by apply inv_of_facts <;> decide +kernel
theorem inv_fed : Inv fed := by apply inv_of_facts <;> decide +kernel
theorem inv_computed : Inv computed := by apply inv_of_facts <;> decide +kernel
theorem inv_fed_sends : Inv (sends 0x00000220 fed) := by apply inv_of_facts <;> decide +kernel
theorem inv_fed_stages : Inv (sends 0x00000019 fed) := by apply inv_of_facts <;> decide +kernel

theorem legal_small : ConfigLegal small.params small.cfg :=
  ⟨by decide +kernel, by decide +kernel, by decide +kernel, by decide +kernel, by decide +kernel⟩

theorem shape_small : ShapeLegal small.cfg := (checkShape_eq_none _).1 (by decide +kernel)

theorem ring_empty {s : State} (h : s.book.cbFed.toInt ≤ s.oldestEntry) : RingHolds s :=
  fun nn u h1 h2 _ _ => by omega

theorem ring_fed_sends : RingHolds (sends 0x00000220 fed) := by
  intro nn u h1 h2 h3 h4
  have e1 : (sends 0x00000220 fed).oldestEntry = 0 := by decide +kernel
  have e2 : (sends 0x00000220 fed).book.cbFed.toInt = 3 := by decide +kernel
  have e3 : (sends 0x00000220 fed).cfg.axes.line = 1 := by decide +kernel
  rw [e1] at h1
  rw [e2] at h2
  rw [e3] at h4
  interval_cases u
  interval_cases nn <;> decide +kernel

theorem ring_fed : RingHolds fed := ring_fed_sends

theorem staged_fed_stages : StagingHolds (sends 0x00000019 fed) := by
  intro ta tc h1 h2 h3 h4
  have e1 : (sends 0x00000019 fed).cfg.axes.kA = 2 := by decide +kernel
  have e2 : (sends 0x00000019 fed).cfg.axes.kC = 1 := by decide +kernel
  rw [e1] at h2
  rw [e2] at h4
  interval_cases tc
  interval_cases ta <;> decide +kernel

theorem staged_fed : StagingHolds fed := staged_fed_stages

theorem padded_fed_stages : StagingPadHolds (sends 0x00000019 fed) := by
  intro ta p h1 h2 h3 h4 h5
  have e1 : (sends 0x00000019 fed).cfg.axes.kA = 2 := by decide +kernel
  have e2 : (sends 0x00000019 fed).book.layKcpad.toInt = 4 := by decide +kernel
  have e3 : ¬ holdsNoTap (sends 0x00000019 fed).cfg 0 := by
    unfold holdsNoTap
    decide +kernel
  rw [e1] at h2
  rw [e2] at h4
  interval_cases p
  · exact absurd h5 e3
  all_goals (interval_cases ta <;> decide +kernel)

/-! ### One witness for each statement with hypotheses, at boundary values of its clauses -/

theorem witness_DecodeOfEncode : wellFormed (.macTile 255) = true ∧ wellFormed (.cbFeed 0) = true := by
  decide

theorem witness_DecodeIffOpcodeRow : decode 0x0000FF11 = .ok (.cbFeed 255) := by decide

theorem witness_IllegalWordRaisesCmdError :
    (∀ i, (0x00000128 : Word) &&& rowMask i ≠ rowMatch i) ∧
      (∀ i, (0x00010004 : Word) &&& rowMask i ≠ rowMatch i) ∧
      ∀ i, (0x00000005 : Word) &&& rowMask i ≠ rowMatch i := by
  refine ⟨?_, ?_, ?_⟩ <;> intro i <;> cases i <;> simp only [rowMask, rowMatch, opcode] <;> decide

theorem witness_StepRunsDecodedCommand :
    (State.reset.withFetchWord 32 0x211).hostQueue = .regWrite 0x01 0x00000211 :: [] ∧
      decode 0x00000211 = .ok (.cbFeed 2) := by decide

theorem witness_StepPerformsHostTransaction :
    State.reset.hostQueue = [] ∧
      ({ State.reset with hostQueue := [.regRead 0x5F] } : State).hostQueue = .regRead 0x5F :: [] ∧
      0x00 ≠ 0x01 ∧ 0x02 ≠ 0x01 ∧
      ({ State.reset with hostQueue := [.regWrite 0x02 7] } : State).hostQueue =
        .regWrite 0x02 7 :: [] ∧
      ({ State.reset with hostQueue := [.memStore 0xFFFFFFFF [9]] } : State).hostQueue =
        .memStore 0xFFFFFFFF [9] :: [] ∧
      ({ State.reset with hostQueue := [.memLoad 0 1] } : State).hostQueue = .memLoad 0 1 :: [] ∧
      ({ State.reset with hostQueue := [.reset] } : State).hostQueue = .reset :: [] := by decide

theorem witness_HostMemoryAccess :
    2 ^ 32 - 1 + [(9 : Byte)].length ≤ 2 ^ 32 ∧
      (∀ i < [(9 : Byte)].length, opened.ownedByCall (2 ^ 32 - 1 + i) = false) ∧
      (∀ i < [(9 : Byte)].length, opened.ownedByCall (0x1002 + i) = false) ∧
      (∃ i < [(9 : Byte)].length, opened.ownedByCall (0x1001 + i) = true) ∧
      2 ^ 32 - 1 + 1 ≤ 2 ^ 32 ∧ 2 ^ 32 < 2 ^ 32 - 1 + [(9 : Byte), 8].length ∧ 2 ^ 32 < 2 ^ 32 - 1 + 2 :=
  ⟨by decide, by decide +kernel, by decide +kernel, ⟨0, by decide, by decide +kernel⟩, by decide, by decide,
    by decide⟩

theorem witness_LittleEndianAccess : 1 ∈ [1, 2, 4, 8] ∧ 8 ∈ [1, 2, 4, 8] := by decide

theorem witness_ReadOnlyAndReservedRegisters :
    isReadOnlyNumber 0x00 = true ∧ isReadOnlyNumber 0x54 = true ∧ isReservedNumber 0x0F = true ∧
      isReservedNumber 0x55 = true ∧ State.reset.params.ok = true := by decide

theorem witness_CfgWriteClosesCall :
    isCfgNumber 0x08 = true ∧ isCfgNumber 0x0E = true ∧ isCfgNumber 0x10 = true ∧
      isCfgNumber 0x28 = true ∧ 0x28 ≠ 0x08 := by decide

theorem witness_ResetValues : 0x01 ≠ 0x00 ∧ 0x01 ≠ 0x07 ∧ 0x60 ≠ 0x00 ∧ 0x60 ≠ 0x07 := by decide

theorem witness_CommandsNeverFault :
    exec .callBegin overlapping = .refused .regionsOverlap ∧
      exec .conv misplaced = .refused .regionMisplaced := by
  have h1 : callVerdict overlapping.params overlapping.cfg overlapping.mem =
    .breach .regionsOverlap := by decide +kernel
  have h2 : callVerdict misplaced.params misplaced.cfg misplaced.mem = .breach .regionMisplaced := by
    decide +kernel
  simp [exec, execBegin, execConv, startCall, h1, h2]

theorem witness_ErrorChangesNothingElse :
    (exec .callBegin State.reset = .next (after .callBegin State.reset) ∧
      (after .callBegin State.reset).cause ≠ 0) ∧
    (exec (.macTile 1) primed = .next (after (.macTile 1) primed) ∧
      (after (.macTile 1) primed).cause = 19) ∧
    exec .callEnd State.reset = .next (after .callEnd State.reset) ∧
      (after .callEnd State.reset).cause = 16 :=
  ⟨⟨exec_after (by decide +kernel), by decide +kernel⟩,
    ⟨exec_after (by decide +kernel), by decide +kernel⟩,
    exec_after (by decide +kernel), by decide +kernel⟩

theorem witness_SuccessReportsResult :
    small.params.ok = true ∧ exec .getsize small = .next (after .getsize small) ∧
      (after .getsize small).cause = 0 ∧ exec .reqWrite computed = .next (after .reqWrite computed) ∧
      (after .reqWrite computed).cause = 0 :=
  ⟨by decide, exec_after (by decide +kernel), by decide +kernel, exec_after (by decide +kernel),
    by decide +kernel⟩

theorem witness_CausesPerCommand :
    exec (.macTile 1) primed = .next (after (.macTile 1) primed) ∧
      (after (.macTile 1) primed).cause.toNat = 19 :=
  ⟨exec_after (by decide +kernel), by decide +kernel⟩

theorem witness_CommandsKeepStickyFlags :
    exec (.macTile 1) primed = .next (after (.macTile 1) primed) ∧
      (after (.macTile 1) primed).status.underrun = true ∧
      exec .conv overflowing = .next (after .conv overflowing) ∧
      (after .conv overflowing).status.accOvf = true :=
  ⟨exec_after (by decide +kernel), by decide +kernel, exec_after (by decide +kernel),
    by decide +kernel⟩

theorem witness_CommandsKeepConfiguration :
    exec .kstage primed = .next (after .kstage primed) ∧ Instr.kstage ≠ .conv :=
  ⟨exec_after (by decide +kernel), by decide⟩

theorem witness_InterlockTable :
    small.status.callOpen = false ∧ opened.status.callOpen = true ∧ opened.status.decValid = false ∧
      opened.status.cbState = .uninitialized ∧ opened.status.kpadValid = false ∧
      (afterAll [.decomp, .cbInit] opened).status.cbState ≠ .uninitialized ∧
      (afterAll [.decomp, .cbInit] opened).status.ksValid = false ∧
      primed.status.accValid = false ∧ primed.status.cbState ≠ .uninitialized ∧
      primed.status.ksValid = true ∧ (0 = 0 ∨ primed.params.rIter < 0) ∧ primed.params.rIter < 3 := by
  decide +kernel

/-- The context register clauses: each register at the first value past its range, and CTX_IC at -1. -/
theorem witness_InterlockTable_contexts :
    let ic := primed.writeReg 0x30 1
    let icNegative := primed.writeReg 0x30 0xFFFFFFFF
    let res := primed.writeReg 0x32 1
    let m := primed.writeReg 0x31 1
    let j0 := primed.writeReg 0x33 1
    (ic.status.callOpen = true ∧ ic.status.decValid = true ∧ ic.status.kpadValid = true ∧
      ¬ic.ctx.ic.toInt < ic.cfg.inC.toInt) ∧
    (icNegative.status.decValid = true ∧ ¬0 ≤ icNegative.ctx.ic.toInt) ∧
    (res.status.callOpen = true ∧ res.status.decValid = true ∧
      (0 ≤ res.ctx.ic.toInt ∧ res.ctx.ic.toInt < res.cfg.inC.toInt) ∧
      ¬res.ctx.res.toInt < res.book.decCount.toInt) ∧
    (m.status.callOpen = true ∧ m.status.kpadValid = true ∧
      (0 ≤ m.ctx.ic.toInt ∧ m.ctx.ic.toInt < m.cfg.inC.toInt) ∧
      ¬m.ctx.m.toInt < m.cfg.chMult.toInt) ∧
    (j0.status.callOpen = true ∧ j0.status.cbState ≠ .uninitialized ∧ j0.status.ksValid = true ∧
      2 ≤ j0.params.rIter ∧ ¬j0.ctx.j0.toInt + (2 : Nat) ≤ j0.book.subNout.toInt) := by decide +kernel

theorem witness_GetsizeReturnsTotal :
    small.params.ok = true ∧ ShapeLegal small.cfg ∧
      ∀ k ∈ capacityQuantities small.params small.cfg, k.2 ≤ 2 ^ 31 - 1 :=
  ⟨by decide, shape_small, by decide +kernel⟩

theorem witness_ShapeCheckOrder :
    checkShape State.reset.cfg = some { cause := .size, info := 0x10 } := by decide

theorem witness_CapacityCheckOrder :
    let s : State := { small with cfg := { small.cfg with chMult := 0x10000000 } }
    checkShape s.cfg = none ∧
      checkCapacity s.params s.cfg = some { cause := .capacity, info := 16 } := by decide +kernel

theorem witness_ArgumentChecks :
    ((true = true ↔ badShift.cfg.precision = .pc8 ∨ badShift.cfg.precision = .s8s16) ∧
      (-128 : Int) = (if badShift.cfg.precision = .s8s16 then -32768 else -128)) ∧
    badShift.cfg.precision = .pc8 ∧ ((1 : Nat) : Int) < badShift.cfg.outChannels ∧
      31 < shiftElem badShift.cfg badShift.mem 1 ∧
      ∀ j < 1, -31 ≤ shiftElem badShift.cfg badShift.mem (j : Nat) ∧
        shiftElem badShift.cfg badShift.mem (j : Nat) ≤ 31 := by decide +kernel

/-- The clause on BEGIN and CONV: the shape and capacity checks pass and the last argument check fails. -/
theorem witness_ArgumentChecks_reject :
    let s : State := { badShift with cfg := { badShift.cfg with outMin := 1 } }
    checkShape s.cfg = none ∧ checkCapacity s.params s.cfg = none ∧
      checkArgs s.cfg = some { cause := .clampRange, info := 0x2728 } := by decide +kernel

theorem witness_BeginOpensCall :
    ConfigLegal small.params small.cfg ∧ checkShiftArray small.cfg small.mem = none :=
  ⟨legal_small, by decide +kernel⟩

theorem witness_BeginAndConvReject :
    firstFailure [checkShape State.reset.cfg, checkCapacity State.reset.params State.reset.cfg,
      checkArgs State.reset.cfg] = some { cause := .size, info := 0x10 } ∧
    checkShape badShift.cfg = none ∧ checkCapacity badShift.params badShift.cfg = none ∧
      checkArgs badShift.cfg = none ∧ badShift.cfg.shiftRegion.placed = true ∧
      checkShiftArray badShift.cfg badShift.mem = some { cause := .shift, info := 0x10E } := by
  decide +kernel

theorem witness_BreachedRegionsRefused :
    (checkShape misplaced.cfg = none ∧ checkCapacity misplaced.params misplaced.cfg = none ∧
      checkArgs misplaced.cfg = none ∧ checkShiftArray misplaced.cfg misplaced.mem = none ∧
      misplaced.cfg.regionsPlaced misplaced.params = false) ∧
    checkShape overlapping.cfg = none ∧ checkCapacity overlapping.params overlapping.cfg = none ∧
      checkArgs overlapping.cfg = none ∧ checkShiftArray overlapping.cfg overlapping.mem = none ∧
      overlapping.cfg.regionsPlaced overlapping.params = true ∧
      overlapping.cfg.regionsDisjoint overlapping.params = false := by decide +kernel

theorem witness_EndClosesCall : opened.status.callOpen = true := by decide +kernel

theorem witness_DecompStoresDecomposition : opened.status.callOpen = true ∧ ShapeLegal opened.cfg :=
  ⟨by decide +kernel, (checkShape_eq_none _).1 (by decide +kernel)⟩

theorem witness_DecompositionLattice : ShapeLegal small.cfg ∧ small.cfg.axes.dA = 1 :=
  ⟨shape_small, by decide +kernel⟩

theorem witness_ClassesPartitionOutputs :
    ShapeLegal small.cfg ∧ (0 ≤ (1 : Int) ∧ 1 < small.cfg.axes.outA) ∧
      (0 ≤ (0 : Int) ∧ 0 < small.cfg.axes.classCount) ∧
      (1 < small.cfg.axes.subOutputs 0 ∧ 1 < small.cfg.axes.kA) ∧ 2 < small.cfg.axes.subEntries 0 :=
  ⟨shape_small, by decide +kernel⟩

theorem witness_CbInitPrimesRing :
    (primed.status.callOpen = true ∧ primed.status.decValid = true ∧ 0 ≤ primed.ctx.ic.toInt ∧
      primed.ctx.ic.toInt < primed.cfg.inC.toInt ∧ 0 ≤ primed.ctx.res.toInt ∧
      primed.ctx.res.toInt < primed.book.decCount.toInt) ∧ Inv primed ∧
      (2 < primed.cfg.ringCapacity primed.params ∧
        7 < primed.cfg.entryBytes / primed.cfg.precision.esIn) :=
  ⟨by decide +kernel, inv_primed, by decide +kernel⟩

theorem witness_CbFeedCompletes :
    primed.status.callOpen = true ∧ primed.status.cbState ≠ .uninitialized ∧ 1 ≤ 2 ∧
      2 ≤ primed.params.rIter ∧ 0 ≤ primed.ctx.j0.toInt ∧
      primed.ctx.j0.toInt + (2 : Nat) ≤ primed.book.subNout.toInt := by decide +kernel

theorem witness_StepKeepsRingContents :
    Inv (sends 0x00000220 fed) ∧ RingHolds (sends 0x00000220 fed) ∧
      (sends 0x00000220 fed).status.cbState ≠ .uninitialized ∧
      ∃ t, step (sends 0x00000220 fed) = .next t ∧ t.status.cbState ≠ .uninitialized :=
  ⟨inv_fed_sends, ring_fed_sends, by decide +kernel, _,
    step_after (i := .macTile 2) rfl (by decide) (by decide +kernel), by decide +kernel⟩

theorem witness_PaddingCorrectness :
    Inv primed ∧ RingHolds primed ∧ exec (.cbFeed 2) primed = .next fed ∧ fed.cause = 0 ∧
      primed.oldestEntry ≤ primed.tileStart ∧ (1 : Int) < (2 : Nat) ∧ 1 < primed.cfg.axes.kA ∧
      0 < primed.cfg.axes.line :=
  ⟨inv_primed, ring_empty (by decide +kernel), exec_after (by decide +kernel), by decide +kernel⟩

theorem witness_RingNeverOverwritesTile :
    small.params.ok = true ∧ ShapeLegal small.cfg ∧ (1 : Int) ≤ 2 ∧ 2 ≤ (small.params.rIter : Int) ∧
      (2 : Int) ≤ 0 * small.cfg.axes.reducedStride +
        (small.cfg.axes.kA + (2 - 1) * small.cfg.axes.reducedStride) - 1 :=
  ⟨by decide, shape_small, by decide +kernel⟩

theorem witness_WindowWrapAddressing :
    Inv fed ∧ fed.status.cbState ≠ .uninitialized ∧ (2 : Int) < fed.book.cbValid.toInt ∧
      0 < fed.cfg.axes.line :=
  ⟨inv_fed, by decide +kernel⟩

theorem witness_KsClearCompletes :
    example4Fed.status.callOpen = true ∧ Inv example4Fed ∧
      (2 < example4Fed.cfg.axes.kA ∧ 3 < example4Fed.cfg.kernelLine example4Fed.params) ∧
      (example4Fed.cfg.axes.kA * example4Fed.cfg.kernelLine example4Fed.params *
        example4Fed.cfg.precision.esK ≤ 12 ∧
        15 < example4Fed.cfg.stagingBytes example4Fed.params) :=
  ⟨by decide +kernel, by apply inv_of_facts <;> decide +kernel, by decide +kernel⟩

theorem witness_KstageCompletes :
    primed.status.callOpen = true ∧ primed.status.kpadValid = true ∧ 0 ≤ primed.ctx.ic.toInt ∧
      primed.ctx.ic.toInt < primed.cfg.inC.toInt ∧ 0 ≤ primed.ctx.m.toInt ∧
      primed.ctx.m.toInt < primed.cfg.chMult.toInt := by decide +kernel

theorem witness_StepKeepsStagedKernel :
    Inv (sends 0x00000019 fed) ∧ StagingPadHolds (sends 0x00000019 fed) ∧
      StagingHolds (sends 0x00000019 fed) ∧
      ∃ t, step (sends 0x00000019 fed) = .next t ∧ t.status.kpadValid = true ∧
        t.status.ksValid = true :=
  ⟨inv_fed_stages, padded_fed_stages, staged_fed_stages, _,
    step_after (i := .kstage) rfl (by decide) (by decide +kernel), by decide +kernel⟩

theorem witness_MacTileCompletes :
    fed.status.callOpen = true ∧ fed.status.cbState ≠ .uninitialized ∧ fed.status.ksValid = true ∧
      1 ≤ 2 ∧ 2 ≤ fed.params.rIter ∧ 0 ≤ fed.ctx.j0.toInt ∧
      fed.ctx.j0.toInt + (2 : Nat) ≤ fed.book.subNout.toInt ∧
      fed.book.cbFed.toInt - fed.book.cbValid.toInt ≤
        fed.ctx.j0.toInt * fed.book.decRstride.toInt ∧
      fed.ctx.j0.toInt * fed.book.decRstride.toInt +
        (fed.cfg.axes.kA + ((2 : Nat) - 1) * fed.book.decRstride.toInt) ≤ fed.book.cbFed.toInt := by
  decide +kernel

/-- One state whose newest needed entry is not fed, one whose oldest needed entry is gone. -/
theorem witness_MacTileEarlyReturn :
    let gone := (after (.cbFeed 1) (primed.writeReg 0x33 1)).writeReg 0x33 0
    (primed.status.callOpen = true ∧ primed.status.cbState ≠ .uninitialized ∧
      primed.status.ksValid = true ∧ 0 ≤ primed.ctx.j0.toInt ∧
      primed.ctx.j0.toInt + (1 : Nat) ≤ primed.book.subNout.toInt ∧
      ¬(primed.ctx.j0.toInt * primed.book.decRstride.toInt +
        (primed.cfg.axes.kA + ((1 : Nat) - 1) * primed.book.decRstride.toInt) ≤
          primed.book.cbFed.toInt)) ∧
    (gone.status.callOpen = true ∧ gone.status.cbState ≠ .uninitialized ∧ gone.status.ksValid = true ∧
      0 ≤ gone.ctx.j0.toInt ∧ gone.ctx.j0.toInt + (1 : Nat) ≤ gone.book.subNout.toInt ∧
      ¬(gone.book.cbFed.toInt - gone.book.cbValid.toInt ≤
        gone.ctx.j0.toInt * gone.book.decRstride.toInt)) := by decide +kernel

theorem witness_MacTileStoresAccumulators :
    Inv fed ∧ exec (.macTile 2) fed = .next computed ∧ computed.cause = 0 ∧ 1 < 2 ∧
      ((0 : Nat) : Int) < fed.cfg.axes.outC :=
  ⟨inv_fed, exec_after (by decide +kernel), by decide +kernel⟩

theorem witness_AccumulatorRange :
    Inv fed ∧ fed.status.callOpen = true ∧ fed.cfg.precision ≠ .f32 ∧ fed.cfg.precision ≠ .s8s16 :=
  ⟨inv_fed, by decide +kernel⟩

theorem witness_MacTileComputesReference :
    Inv fed ∧ RingHolds fed ∧ StagingHolds fed ∧ exec (.macTile 2) fed = .next computed ∧
      computed.cause = 0 ∧ 1 < 2 ∧ ((0 : Nat) : Int) < fed.cfg.axes.outC :=
  ⟨inv_fed, ring_fed, staged_fed, exec_after (by decide +kernel), by decide +kernel⟩

theorem witness_ReqWriteCompletes :
    computed.status.callOpen = true ∧ computed.status.accValid = true := by decide +kernel

theorem witness_ReqWriteStoresOutputs :
    Inv computed ∧ exec .reqWrite computed = .next (after .reqWrite computed) ∧
      (after .reqWrite computed).cause = 0 ∧ ((1 : Nat) : Int) < computed.book.accN.toInt ∧
      ((0 : Nat) : Int) < computed.cfg.axes.outC :=
  ⟨inv_computed, exec_after (by decide +kernel), by decide +kernel⟩

theorem witness_FinishInRange : checkArgs small.cfg = none ∧ small.cfg.precision ≠ .f32 := by
  decide +kernel

theorem witness_RoundingPrimitives :
    (1 : Int) ≤ 1 ∧ 2 * |rha 1 1 * 2 ^ (1 : Int).toNat - 1| = 2 ^ (1 : Int).toNat ∧ (0 : Int) ≤ 0 ∧
      -(2 ^ 31) ≤ (0x7FFEFFFF : Int) ∧ (0x7FFEFFFF : Int) < 0x7FFF0000 ∧
      (0x7FFF0000 : Int) < 2 ^ 31 := by decide +kernel

theorem witness_RequantizeRoundTrip :
    let c := { badShift.cfg with outMin := -128, outMax := 127 }
    c.precision = .pc8 ∧ (-31 : Int) ≤ -31 ∧ (31 : Int) ≤ 31 ∧ c.outMin.toInt ≤ c.outMax.toInt ∧
      (c.outMin.toInt < finishWith c 5 0x40000000 1 ∧
        finishWith c 5 0x40000000 1 < c.outMax.toInt) ∧
      c.outMax.toInt * 2 ^ ((31 : Int) - 1).toNat ≤
        127 * 0x40000000 + c.outZp.toInt * 2 ^ ((31 : Int) - 1).toNat ∧
      (-128) * 0x40000000 + c.outZp.toInt * 2 ^ ((31 : Int) - 1).toNat ≤
        c.outMin.toInt * 2 ^ ((31 : Int) - 1).toNat := by decide +kernel

theorem witness_FloatRoundsToNearest :
    F32.isFinite 0x3F800000 = true ∧ F32.isFinite 0x7F7FFFFF = true ∧ F32.isFinite 0x00000001 = true :=
  by decide

theorem witness_FloatSpecialValues :
    F32.isNaN 0x7F800001 = true ∧ F32.isInf 0x7F800000 = true ∧ F32.mant 0x80000000 = 0 ∧
      F32.isInf 0xFF800000 = true ∧ F32.neg 0x7F800000 ≠ F32.neg 0xFF800000 ∧
      F32.isNaN 0x00000001 = false ∧ F32.isInf 0x00000001 = false ∧ F32.mant 0x00000001 ≠ 0 ∧
      F32.isFinite 0x80000000 = true ∧ F32.isFinite 0x00000001 = true ∧ F32.mant 0x00000000 = 0 := by decide

/-- R300 by hand: (-0) + (-0) = -0, (+0) + (-0) = +0, and -2^(-149) × 2^(-149) underflows to -0. -/
theorem test_signed_zeros :
    F32.add 0x80000000 0x80000000 = 0x80000000 ∧ F32.add 0x00000000 0x80000000 = 0x00000000 ∧
      F32.mul 0x80000001 0x00000001 = 0x80000000 := by decide +kernel

theorem witness_StepKeepsInvariant :
    Inv (sends 0x00000220 fed) ∧ ∃ t, step (sends 0x00000220 fed) = .next t :=
  ⟨inv_fed_sends, _, step_after (i := .macTile 2) rfl (by decide) (by decide +kernel)⟩

theorem witness_StepKeepsMemoryCanonical :
    (sends 0x00000220 fed).mem.wf = true ∧ ∃ t, step (sends 0x00000220 fed) = .next t :=
  ⟨by decide +kernel, _, step_after (i := .macTile 2) rfl (by decide) (by decide +kernel)⟩

theorem witness_CommandFootprint :
    Inv computed ∧ exec .reqWrite computed = .next (after .reqWrite computed) ∧
      commandWrites .reqWrite computed.params computed.cfg 0x1402 = false ∧
      commandWrites .reqWrite computed.params computed.cfg 0x1401 = true :=
  ⟨inv_computed, exec_after (by decide +kernel), by decide +kernel⟩

theorem witness_ConvCompletes :
    small.params.ok = true ∧ ConfigLegal small.params small.cfg ∧
      checkShiftArray small.cfg small.mem = none :=
  ⟨by decide, legal_small, by decide +kernel⟩

/-- More residue classes than outputs, and a bias add that overflows. -/
theorem witness_ConvCompletes_corners :
    (({ small.cfg with dilY := 5 } : Cfg).axes.outA < ({ small.cfg with dilY := 5 } : Cfg).axes.classCount ∧
      ConfigLegal small.params { small.cfg with dilY := 5 }) ∧
    overflowing.params.ok = true ∧ ConfigLegal overflowing.params overflowing.cfg ∧
      checkShiftArray overflowing.cfg overflowing.mem = none ∧ overflowing.cfg.precision = .s8s16 ∧
      2 ^ 63 ≤ refSum overflowing.cfg overflowing.mem 0 0 0 + biasElem overflowing.cfg overflowing.mem 0 :=
  ⟨⟨by decide +kernel, by decide +kernel, by decide +kernel, by decide +kernel, by decide +kernel,
      by decide +kernel⟩,
    by decide, ⟨by decide +kernel, by decide +kernel, by decide +kernel, by decide +kernel,
      by decide +kernel⟩, by decide +kernel⟩

/-- R356 by hand: the small call's one tile of two outputs starts at 0 and feeds three entries. -/
theorem test_conv_registers :
    let t := after .conv small
    (t.readReg 0x30, t.readReg 0x33, t.readReg 0x43, t.readReg 0x49, t.readReg 0x4A, t.readReg 0x4C) =
      (0, 0, 3, 3, 2, 2) := by decide +kernel

theorem witness_ConvComputesReference :
    small.params.ok = true ∧ exec .conv small = .next (after .conv small) ∧
      (after .conv small).cause = 0 ∧ (0 : Int) < small.cfg.outChannels ∧
      (1 : Int) < small.cfg.outH.toInt ∧ (0 : Int) < small.cfg.outW.toInt ∧
      writableByCall small.params small.cfg 0x203F = false :=
  ⟨by decide, exec_after (by decide +kernel), by decide +kernel⟩

theorem witness_LayoutEquivalence :
    let c := small.cfg
    let c' := { small.cfg with layout := 0 }
    ShapeLegal c ∧ c' = { c with layout := c'.layout } ∧
      (∀ ic y x : Int, 0 ≤ ic → ic < c.inC.toInt → 0 ≤ y → y < c.inH.toInt → 0 ≤ x →
        x < c.inW.toInt →
        small.mem.load (c'.inputAddr ic y x) c.precision.tIn =
          small.mem.load (c.inputAddr ic y x) c.precision.tIn) ∧
      (∀ oc ky kx : Int, 0 ≤ oc → oc < c.outChannels → 0 ≤ ky → ky < c.kH.toInt → 0 ≤ kx →
        kx < c.kW.toInt →
        small.mem.load (c'.kernelAddr oc ky kx) c.precision.tK =
          small.mem.load (c.kernelAddr oc ky kx) c.precision.tK) ∧
      ∀ oc : Int, 0 ≤ oc → oc < c.outChannels →
        biasElem c' small.mem oc = biasElem c small.mem oc ∧
          (c.precision.perChannel = true →
            multElem c' small.mem oc = multElem c small.mem oc ∧
              shiftElem c' small.mem oc = shiftElem c small.mem oc) := by
  have e1 : small.cfg.inC.toInt = 1 := by decide +kernel
  have e2 : small.cfg.inH.toInt = 2 := by decide +kernel
  have e3 : small.cfg.inW.toInt = 1 := by decide +kernel
  have e4 : small.cfg.outChannels = 1 := by decide +kernel
  have e5 : small.cfg.kH.toInt = 2 := by decide +kernel
  have e6 : small.cfg.kW.toInt = 1 := by decide +kernel
  refine ⟨shape_small, rfl, ?_, ?_, fun oc _ _ => ⟨rfl, fun _ => ⟨rfl, rfl⟩⟩⟩
  · intro ic y x h1 h2 h3 h4 h5 h6
    rw [e1] at h2
    rw [e2] at h4
    rw [e3] at h6
    interval_cases ic
    interval_cases x
    interval_cases y <;> decide +kernel
  · intro oc ky kx h1 h2 h3 h4 h5 h6
    rw [e4] at h2
    rw [e5] at h4
    rw [e6] at h6
    interval_cases oc
    interval_cases kx
    interval_cases ky <;> decide +kernel

end Sys2Proof.Tests
end

/-! SUPPORT. The proofs of the family 00_scope: the step, the host's memory accesses, the capacity check and
the two scalings. -/

namespace Sys2Proof.Machine

/-! ### The step -/

theorem step_of_empty {s : State} (h : s.hostQueue = []) : step s = .next s := by
  simp [step, nextTransaction, h]

theorem step_of_queue {s : State} {t : HostTxn} {rest : List HostTxn} (h : s.hostQueue = t :: rest) :
    step s = transact t { s with hostQueue := rest } := by
  simp [step, nextTransaction, h]

theorem transact_regWrite_of_ne {no : Nat} (w : Word) (s : State) (h : no ≠ 0x01) :
    transact (.regWrite no w) s = .next (s.writeReg no w) := if_neg h

/-- Settles O6: a step is the oldest transaction, performed on the state without it. -/
theorem stepPerformsHostTransaction : Obligations.StepPerformsHostTransaction := by
  intro s
  refine ⟨step_of_empty, fun no rest h => step_of_queue h, fun no w rest hno h => ?_,
    fun addr bytes rest h => step_of_queue h, fun addr len rest h => step_of_queue h,
    fun rest h => step_of_queue h⟩
  rw [step_of_queue h, transact_regWrite_of_ne w _ hno]

/-! ### Host memory accesses (20_memory.md R100, R122) -/

@[simp] theorem length_readBytes (m : Memory) (addr len : Nat) : (m.readBytes addr len).length = len := by
  simp [Memory.readBytes]

theorem getElem?_readBytes (m : Memory) (addr : Nat) {len i : Nat} (h : i < len) :
    (m.readBytes addr len)[i]? = some (m.read (addr + i)) := by
  simp [Memory.readBytes, h]

theorem readBytes_writeBytes (m : Memory) (addr : Nat) (bytes : List Byte) :
    (m.writeBytes addr bytes).readBytes addr bytes.length = bytes := by
  refine List.ext_getElem? fun i => ?_
  by_cases h : i < bytes.length
  · rw [getElem?_readBytes _ _ h, read_writeBytes_at h, List.getElem?_eq_getElem h]
  · rw [List.getElem?_eq_none (by simpa using h), List.getElem?_eq_none (by simpa using h)]

section
variable {s : State} {addr len : Nat} {bytes : List Byte}

theorem transact_memStore_free (h : addr + bytes.length ≤ 2 ^ 32)
    (hfree : ∀ i < bytes.length, s.ownedByCall (addr + i) = false) :
    transact (.memStore addr bytes) s = .next { s with mem := s.mem.writeBytes addr bytes } := by
  have hin : ¬Config.addressSpace < addr + bytes.length := not_lt.2 h
  simpa [transact, hostStore, hin] using hfree

theorem transact_memStore_owned (h : addr + bytes.length ≤ 2 ^ 32)
    (howned : ∃ i < bytes.length, s.ownedByCall (addr + i) = true) :
    transact (.memStore addr bytes) s = .refused .hostWroteOwnedRegion := by
  have hin : ¬Config.addressSpace < addr + bytes.length := not_lt.2 h
  simpa [transact, hostStore, hin] using howned

theorem transact_memStore_beyond (h : 2 ^ 32 < addr + bytes.length) :
    transact (.memStore addr bytes) s = .fault .noSuchAddress := if_pos h

theorem transact_memLoad_inside (h : addr + len ≤ 2 ^ 32) :
    transact (.memLoad addr len) s = .next { s with reply := .bytes (s.mem.readBytes addr len) } :=
  if_neg (not_lt.2 h)

theorem transact_memLoad_beyond (h : 2 ^ 32 < addr + len) :
    transact (.memLoad addr len) s = .fault .noSuchAddress := if_pos h

end

/-- Settles O7: the memory a store leaves is `writeBytes` of it, which reads back and has its own frame. -/
theorem hostMemoryAccess : Obligations.HostMemoryAccess := by
  intro s addr bytes len
  refine ⟨fun h => ⟨fun hfree => ?_, transact_memStore_owned h⟩, fun h => ?_,
    transact_memStore_beyond, transact_memLoad_beyond⟩
  · refine ⟨s.mem.writeBytes addr bytes, transact_memStore_free h hfree, ?_,
      fun a ha => read_writeBytes_outside ha⟩
    rw [transact_memLoad_inside h, readBytes_writeBytes]
  · exact ⟨s.mem.readBytes addr len, transact_memLoad_inside h, length_readBytes _ _ _,
      fun i hi => getElem?_readBytes _ _ hi⟩

/-! ### The capacity check (40_planner.md R173) -/

/-- With numbers in rising order, the first failing check is the failing one of least number. -/
theorem firstFailure_rising_eq_some {l : List (Nat × Int)} (hl : (l.map Prod.fst).Pairwise (· < ·))
    (bound : Int) (cause : Cause) (k : Nat) :
    firstFailure (l.map fun x => require (decide (x.2 ≤ bound)) cause x.1) =
        some { cause := cause, info := k } ↔
      ∃ q, (k, q) ∈ l ∧ bound < q ∧ ∀ j q', (j, q') ∈ l → j < k → q' ≤ bound := by
  induction l with
  | nil => simp [firstFailure]
  | cons x t ih =>
    obtain ⟨a, v⟩ := x
    simp only [List.map_cons, List.pairwise_cons] at hl
    obtain ⟨hlt, ht⟩ := hl
    have later : ∀ {j q}, (j, q) ∈ t → a < j := fun h => hlt _ (List.mem_map_of_mem h)
    rw [List.map_cons, require_decide, firstFailure_ite]
    by_cases hv : v ≤ bound
    · rw [if_pos hv, ih ht]
      constructor
      · rintro ⟨q, hq, hb, hall⟩
        refine ⟨q, List.mem_cons_of_mem _ hq, hb, fun j q' hj hjk => ?_⟩
        rcases List.mem_cons.1 hj with hj | hj
        · cases hj; exact hv
        · exact hall j q' hj hjk
      · rintro ⟨q, hq, hb, hall⟩
        rcases List.mem_cons.1 hq with hq | hq
        · cases hq; omega
        · exact ⟨q, hq, hb, fun j q' hj => hall j q' (List.mem_cons_of_mem _ hj)⟩
    · rw [if_neg hv]
      constructor
      · intro h
        obtain rfl : a = k := by simpa using h
        refine ⟨v, List.mem_cons_self, not_le.1 hv, fun j q' hj hjk => ?_⟩
        rcases List.mem_cons.1 hj with hj | hj
        · cases hj; omega
        · have := later hj; omega
      · rintro ⟨q, hq, -, hall⟩
        rcases List.mem_cons.1 hq with hq | hq
        · cases hq; rfl
        · exact absurd (hall a v List.mem_cons_self (later hq)) hv

theorem capacityQuantities_numbers (p : Config.Params) (c : Cfg) :
    (capacityQuantities p c).map Prod.fst = List.range' 1 16 := rfl

theorem checkCapacity_eq_some_iff (p : Config.Params) (c : Cfg) (k : Nat) :
    checkCapacity p c = some { cause := .capacity, info := k } ↔
      ∃ q, (k, q) ∈ capacityQuantities p c ∧ Config.countMax < q ∧
        ∀ j q', (j, q') ∈ capacityQuantities p c → j < k → q' ≤ Config.countMax :=
  firstFailure_rising_eq_some (by rw [capacityQuantities_numbers]; exact List.pairwise_lt_range')
    Config.countMax .capacity k

section
variable {s : State} {e : CmdError}

theorem exec_getsize_of_check (h : firstFailure [checkShape s.cfg, checkCapacity s.params s.cfg] = some e) :
    exec .getsize s = .next (s.raiseErr e) := by
  simp [exec, execGetsize, h]

variable (h : firstFailure [checkShape s.cfg, checkCapacity s.params s.cfg, checkArgs s.cfg] = some e)
include h

theorem startCall_of_check (go : State → State) : startCall go s = .next (s.close.raiseErr e) := by
  simp [startCall, callVerdict, h]

theorem exec_callBegin_of_check : exec .callBegin s = .next (s.close.raiseErr e) := startCall_of_check h id

theorem exec_conv_of_check : exec .conv s = .next (s.close.raiseErr e) := startCall_of_check h convolve

end

/-- Settles O24: the quantities' numbers rise, so the first failing check is the one of least number. -/
theorem capacityCheckOrder : Obligations.CapacityCheckOrder := by
  refine ⟨fun p c => ⟨rfl, checkCapacity_eq_some_iff p c⟩, fun s e hshape hcap => ?_⟩
  exact ⟨exec_getsize_of_check (by simp [firstFailure, hshape, hcap]),
    exec_callBegin_of_check (by simp [firstFailure, hshape, hcap]),
    exec_conv_of_check (by simp [firstFailure, hshape, hcap])⟩

/-! ### The rounding shift (00_scope.md R13) -/

theorem two_pow_toNat {s : Int} (hs : 1 ≤ s) : (2 : Int) ^ s.toNat = 2 * 2 ^ (s.toNat - 1) := by
  rw [← pow_succ', Nat.sub_add_cancel (by omega)]

theorem rha_of_nonpos (v : Int) {s : Int} (hs : s ≤ 0) : rha v s = v * 2 ^ (-s).toNat := if_pos hs

theorem rha_of_nonneg {v s : Int} (hs : 1 ≤ s) (hv : 0 ≤ v) :
    rha v s = (v + 2 ^ (s.toNat - 1)) / 2 ^ s.toNat := by
  simp [rha, show ¬s ≤ 0 by omega, hv, abs_of_nonneg hv]

theorem rha_zero {s : Int} (hs : 1 ≤ s) : rha 0 s = 0 := by
  rw [rha_of_nonneg hs le_rfl, zero_add]
  exact Int.ediv_eq_zero_of_lt (by positivity)
    (pow_lt_pow_right₀ (by norm_num) (Nat.sub_one_lt (by omega)))

theorem rha_neg (v : Int) {s : Int} (hs : 1 ≤ s) : rha (-v) s = -rha v s := by
  have hs' : ¬s ≤ 0 := by omega
  rcases lt_trichotomy v 0 with hv | rfl | hv
  · simp [rha, hs', hv.le, not_le.2 hv]
  · rw [neg_zero, rha_zero hs, neg_zero]
  · simp [rha, hs', hv.le, not_le.2 hv]

/-- `r` is an integer nearest to v / 2^s, and of two nearest ones it is the one farther from zero
(00_scope.md R13); both sides are multiplied by 2^s. -/
def RoundsAway (v s r : Int) : Prop :=
  2 * |r * 2 ^ s.toNat - v| ≤ 2 ^ s.toNat ∧
    (2 * |r * 2 ^ s.toNat - v| = 2 ^ s.toNat → |v| < |r * 2 ^ s.toNat|)

theorem RoundsAway.neg {v s r : Int} (h : RoundsAway v s r) : RoundsAway (-v) s (-r) := by
  have e : -r * 2 ^ s.toNat - -v = -(r * 2 ^ s.toNat - v) := by ring
  unfold RoundsAway
  rwa [e, neg_mul, abs_neg, abs_neg, abs_neg]

/-- The quotient is below v + 2^(s-1) by less than 2^s, so a tie is at the upper end. -/
theorem roundsAway_rha_of_nonneg {v s : Int} (hs : 1 ≤ s) (hv : 0 ≤ v) : RoundsAway v s (rha v s) := by
  have hpow := two_pow_toNat hs
  have hhalf : (0 : Int) < 2 ^ (s.toNat - 1) := by positivity
  have hpos : (0 : Int) < 2 ^ s.toNat := by positivity
  have hle := Int.ediv_mul_le (v + 2 ^ (s.toNat - 1)) hpos.ne'
  have hlt := Int.lt_ediv_add_one_mul_self (v + 2 ^ (s.toNat - 1)) hpos
  rw [← rha_of_nonneg hs hv] at hle hlt
  rw [add_mul, one_mul] at hlt
  unfold RoundsAway
  generalize rha v s * 2 ^ s.toNat = t at hle hlt ⊢
  have := le_abs_self t
  rw [abs_of_nonneg hv]
  rcases abs_cases (t - v) with ⟨habove, -⟩ | ⟨hbelow, -⟩
  · rw [habove]
    exact ⟨by omega, fun htie => by omega⟩
  · rw [hbelow]
    exact ⟨by omega, fun htie => by omega⟩

theorem roundsAway_rha (v : Int) {s : Int} (hs : 1 ≤ s) : RoundsAway v s (rha v s) := by
  rcases le_total 0 v with hv | hv
  · exact roundsAway_rha_of_nonneg hs hv
  · have h := (roundsAway_rha_of_nonneg hs (neg_nonneg.2 hv)).neg
    rwa [rha_neg v hs, neg_neg, neg_neg] at h

theorem rha_nearest (v : Int) {s : Int} (hs : 0 ≤ s) : 2 * |rha v s * 2 ^ s.toNat - v| ≤ 2 ^ s.toNat := by
  rcases hs.eq_or_lt with rfl | hs
  · simp [rha]
  · exact (roundsAway_rha v hs).1

theorem le_rha_of_le {v s n : Int} (hs : 0 ≤ s) (h : n * 2 ^ s.toNat ≤ v) : n ≤ rha v s := by
  have hpos : (0 : Int) < 2 ^ s.toNat := by positivity
  have hnear := neg_le_abs (rha v s * 2 ^ s.toNat - v)
  have := rha_nearest v hs
  by_contra hlt
  have hstep : (rha v s + 1) * 2 ^ s.toNat ≤ n * 2 ^ s.toNat :=
    mul_le_mul_of_nonneg_right (by omega) hpos.le
  rw [add_mul] at hstep
  omega

theorem rha_le_of_le {v s n : Int} (hs : 0 ≤ s) (h : v ≤ n * 2 ^ s.toNat) : rha v s ≤ n := by
  have hpos : (0 : Int) < 2 ^ s.toNat := by positivity
  have hnear := le_abs_self (rha v s * 2 ^ s.toNat - v)
  have := rha_nearest v hs
  by_contra hlt
  have hstep : (n + 1) * 2 ^ s.toNat ≤ rha v s * 2 ^ s.toNat :=
    mul_le_mul_of_nonneg_right (by omega) hpos.le
  rw [add_mul] at hstep
  omega

/-! ### The multiplier of 16 bits (44_requantization.md R287) -/

theorem reduce15_of_ge {m : Int} (h : 0x7FFF0000 ≤ m) : reduce15 m = 0x7FFF := if_pos h

theorem reduce15_of_lt {m : Int} (h : m < 0x7FFF0000) : reduce15 m = (m + 2 ^ 15) / 2 ^ 16 :=
  if_neg (not_le.2 h)

/-- Below the saturation the error lies in the half-open half unit of a floor after adding 2^15. -/
theorem reduce15_error {m : Int} (h : m < 0x7FFF0000) :
    -(2 ^ 15) < reduce15 m * 2 ^ 16 - m ∧ reduce15 m * 2 ^ 16 - m ≤ 2 ^ 15 := by
  rw [reduce15_of_lt h]
  omega

theorem reduce15_range {m : Int} (hm : -(2 ^ 31) ≤ m) : -(2 ^ 15) ≤ reduce15 m ∧ reduce15 m < 2 ^ 15 := by
  rcases le_or_gt 0x7FFF0000 m with h | h
  · rw [reduce15_of_ge h]
    norm_num
  · have := reduce15_error h
    omega

/-- Settles O50: `roundsAway_rha` is the half above zero and its mirror image, `reduce15_error` a floor after adding
half a unit. -/
theorem roundingPrimitives : Obligations.RoundingPrimitives := by
  refine ⟨fun v s hs => ⟨(roundsAway_rha v hs).1, (roundsAway_rha v hs).2, rha_neg v hs⟩,
    fun v s hs => rha_of_nonpos v hs, fun m hm _ => ?_⟩
  exact ⟨(reduce15_range hm).1, (reduce15_range hm).2, reduce15_of_ge, reduce15_error⟩

/-! ### Requantization per channel (44_requantization.md R286, R290) -/

theorem clamp_eq_self {v lo hi : Int} (hlo : lo < clamp v lo hi) (hhi : clamp v lo hi < hi) :
    clamp v lo hi = v := by
  unfold clamp at *
  omega

theorem clamp_eq_hi {v lo hi : Int} (hle : lo ≤ hi) (h : hi ≤ v) : clamp v lo hi = hi := by
  unfold clamp
  omega

theorem clamp_eq_lo {v lo hi : Int} (h : v ≤ lo) : clamp v lo hi = lo := by
  unfold clamp
  omega

theorem finishWith_of_pc8 {c : Cfg} (hc : c.precision = .pc8) (acc mult shift : Int) :
    finishWith c acc mult shift =
      clamp (rha (acc * mult) (31 - shift) + c.outZp.toInt) c.outMin.toInt c.outMax.toInt := by
  simp [finishWith, hc, rq31]

/-- Settles O51: between the bounds the clamp is idle and `rha` is nearest; at a bound `rha` is not below
(not above) an integer that its exact argument reaches. -/
theorem requantizeRoundTrip : Obligations.RequantizeRoundTrip := by
  rintro c x mult shift y hc - hshift hbounds rfl
  have hs : 0 ≤ 31 - shift := by omega
  rw [finishWith_of_pc8 hc]
  refine ⟨fun hlo hhi => ?_, fun h => ?_, fun h => ?_⟩
  · rw [clamp_eq_self hlo hhi, add_sub_cancel_right]
    exact rha_nearest _ hs
  · have : c.outMax.toInt - c.outZp.toInt ≤ rha (x * mult) (31 - shift) :=
      le_rha_of_le hs (by rw [sub_mul]; omega)
    exact clamp_eq_hi hbounds (by omega)
  · have : rha (x * mult) (31 - shift) ≤ c.outMin.toInt - c.outZp.toInt :=
      rha_le_of_le hs (by rw [sub_mul]; omega)
    exact clamp_eq_lo (by omega)

end Sys2Proof.Machine

/-! SUPPORT. What a command and a step can do, each said once: a command raises an error, returns early or
performs its effect, and a step is one of a few moves of the engine. -/

namespace Sys2Proof.Machine

/-! ### What a command can do -/

/-- What a command does to the state when nothing ends it early, before `done`. -/
def commandEffect (i : Instr) (s : State) : State :=
  match i with
  | .nop => s
  | .getsize => s
  | .callBegin => openCall s.close
  | .callEnd => releaseScratch s.close
  | .conv => convolve (openCall s.close)
  | .decomp => decompose s
  | .cbInit => initRing s
  | .cbFeed n => feedRing n s
  | .ksClear => clearStaging s
  | .kstage => stageKernel s
  | .macTile n => computeTile n s
  | .reqWrite => writeTile s

/-- What a command tests before its effect. -/
def CommandReady (i : Instr) (s : State) : Prop :=
  match i with
  | .nop => True
  | .getsize => True
  | .callBegin => callVerdict s.params s.cfg s.mem = .accept
  | .callEnd => s.status.callOpen = true
  | .conv => callVerdict s.params s.cfg s.mem = .accept
  | .decomp => s.status.callOpen = true
  | .cbInit => cbInitPre s = none
  | .cbFeed n => cbFeedPre n s = none
  | .ksClear => s.status.callOpen = true
  | .kstage => kstagePre s = none
  | .macTile n => macTilePre n s = none ∧ s.windowMisses n = none
  | .reqWrite => reqWritePre s = none

/-- The four ways a command ends (60_exceptions.md R390 to R392, 43_compute_loop.md R251). -/
inductive CommandEnd (i : Instr) (s : State) : State → Prop where
  /-- An error that changes nothing else. -/
  | error (e : CmdError) : CommandEnd i s (s.raiseErr e)
  /-- BEGIN or CONV rejects its configuration, the call closed. -/
  | rejected (e : CmdError) : i = .callBegin ∨ i = .conv → CommandEnd i s (s.close.raiseErr e)
  /-- The early return of MAC_TILE. -/
  | underrun (n k : Nat) : i = .macTile n → CommandEnd i s (underrunReturn k s)
  /-- The effect, and `done(v)`. -/
  | done (v : Int) : CommandReady i s → CommandEnd i s ((commandEffect i s).finish v)

section
variable {i : Instr} {s t : State}

theorem CommandEnd.of_runCommand {pre : Option CmdError}
    (h : runCommand pre (commandEffect i) s = .next t) (hready : pre = none → CommandReady i s) :
    CommandEnd i s t := by
  rcases runCommand_cases h with ⟨e, -, rfl⟩ | ⟨hpre, rfl⟩
  · exact .error e
  · exact .done 0 (hready hpre)

theorem CommandEnd.of_startCall {go : State → State} (h : startCall go s = .next t)
    (hi : i = .callBegin ∨ i = .conv)
    (hready : callVerdict s.params s.cfg s.mem = .accept → CommandReady i s)
    (heffect : go (openCall s.close) = commandEffect i s) : CommandEnd i s t := by
  rcases startCall_cases go s with ⟨e, -, he⟩ | ⟨r, -, hr⟩ | ⟨hv, ha⟩
  · cases he.symm.trans h
    exact .rejected e hi
  · cases hr.symm.trans h
  · cases ha.symm.trans h
    rw [heffect]
    exact .done 0 (hready hv)

theorem exec_ends (h : exec i s = .next t) : CommandEnd i s t := by
  cases i with
  | nop => cases h; exact .done 0 trivial
  | getsize =>
    simp only [exec, execGetsize] at h
    split at h
    · cases h; exact .error _
    · cases h; exact .done _ trivial
  | callBegin => exact .of_startCall h (.inl rfl) id rfl
  | conv => exact .of_startCall h (.inr rfl) id rfl
  | macTile n =>
    rcases execMacTile_cases h with ⟨e, -, rfl⟩ | ⟨k, -, -, rfl⟩ | ⟨hpre, hwin, rfl⟩
    · exact .error e
    · exact .underrun n k rfl
    · exact .done 0 ⟨hpre, hwin⟩
  | callEnd => exact .of_runCommand h (needOpen_eq_none _).1
  | decomp => exact .of_runCommand h (needOpen_eq_none _).1
  | ksClear => exact .of_runCommand h (needOpen_eq_none _).1
  | cbInit => exact .of_runCommand h id
  | cbFeed n => exact .of_runCommand h id
  | kstage => exact .of_runCommand h id
  | reqWrite => exact .of_runCommand h id

end

/-! ### What the parts of CONV keep -/

/-- A property that every part of the CONV sequencer keeps (46_conv_sequencer.md R356). -/
structure KeptByConv (P : State → Prop) : Prop where
  /-- The part `close` keeps it. -/
  close : ∀ s, P s → P s.close
  /-- The release of the scratch region keeps it. -/
  release : ∀ s, P s → P (releaseScratch s)
  /-- A write of CTX_IC keeps it. -/
  writeIc : ∀ w s, P s → P (s.writeIc w)
  /-- A write of CTX_M keeps it. -/
  writeM : ∀ w s, P s → P (s.writeM w)
  /-- A write of CTX_RES keeps it. -/
  writeRes : ∀ w s, P s → P (s.writeRes w)
  /-- A write of CTX_J0 keeps it. -/
  writeJ0 : ∀ w s, P s → P (s.writeJ0 w)
  /-- DECOMP keeps it. -/
  decompose : ∀ s, P s → P (decompose s)
  /-- KS_CLEAR keeps it. -/
  clearStaging : ∀ s, P s → P (clearStaging s)
  /-- CB_INIT keeps it. -/
  initRing : ∀ s, P s → P (initRing s)
  /-- KSTAGE keeps it. -/
  stageKernel : ∀ s, P s → P (stageKernel s)
  /-- CB_FEED keeps it. -/
  feedRing : ∀ n s, P s → P (feedRing n s)
  /-- MAC_TILE keeps it. -/
  computeTile : ∀ n s, P s → P (computeTile n s)
  /-- REQ_WRITE keeps it. -/
  writeTile : ∀ s, P s → P (writeTile s)

section
variable {P : State → Prop} (h : KeptByConv P) {s : State}
include h

theorem KeptByConv.convTile (j0 n : Nat) (hs : P s) : P (convTile j0 n s) :=
  h.writeTile _ (h.computeTile n _ (h.feedRing n _ (h.writeJ0 _ _ hs)))

theorem KeptByConv.convTiles (hs : P s) : P (convTiles s) :=
  List.foldlRecOn _ _ hs fun _ ht j0 _ => h.convTile j0 _ ht

theorem KeptByConv.convFilter (r ic m : Nat) (hs : P s) : P (convFilter r ic m s) := by
  have hinit : P (Machine.initRing (convContext r ic m s)) :=
    h.initRing _ (h.writeJ0 _ _ (h.writeRes _ _ (h.writeM _ _ (h.writeIc _ _ hs))))
  unfold Machine.convFilter
  dsimp only
  split
  · exact hinit
  · exact h.convTiles (h.stageKernel _ hinit)

theorem KeptByConv.convLoops (hs : P s) : P (convLoops s) :=
  List.foldlRecOn _ _ hs fun _ hr r _ =>
    List.foldlRecOn _ _ hr fun _ hic ic _ =>
      List.foldlRecOn _ _ hic fun _ hm m _ => h.convFilter r ic m hm

theorem KeptByConv.convolve (hs : P s) : P (convolve s) :=
  h.release _ (h.close _ (h.convLoops (h.clearStaging _ (h.decompose _ hs))))

end

theorem keptByConv_keepsSetup (s : State) : KeptByConv (KeepsSetup s) := by
  constructor
  all_goals
    intros
    rename_i h
    exact ⟨h.params, h.cfg, h.hostQueue, h.reply⟩

theorem keptByConv_mem_wf : KeptByConv fun s => s.mem.wf = true where
  close _ := id
  release _ := wf_forgetRange _ _ _
  writeIc _ _ := id
  writeM _ _ := id
  writeRes _ _ := id
  writeJ0 _ _ := id
  decompose _ := id
  clearStaging _ := wf_applyStores _
  initRing _ := wf_applyStores _
  stageKernel _ := wf_applyStores _
  feedRing _ _ := wf_applyStores _
  computeTile _ _ := wf_applyStores _
  writeTile _ := wf_applyStores _

theorem convolve_status_closed (s : State) : (convolve s).status = (convolve s).status.close := rfl

/-! ### What a step can do -/

/-- The engine of `t` differs from that of `s` in nothing but result registers and sticky flags; the
model's own fields other than memory may differ too. -/
structure SameEngine (s t : State) : Prop where
  /-- The implementation parameters. -/
  params : t.params = s.params
  /-- The CFG registers. -/
  cfg : t.cfg = s.cfg
  /-- The CTX registers. -/
  ctx : t.ctx = s.ctx
  /-- The stored RO registers. -/
  book : t.book = s.book
  /-- The memory. -/
  mem : t.mem = s.mem
  /-- The state fields of STATUS. -/
  status : t.status = { s.status with
    err := t.status.err, underrun := t.status.underrun, accOvf := t.status.accOvf }

/-- What one host transaction can do to the engine, but for result registers and sticky flags. -/
inductive Moves (s : State) : State → Prop where
  /-- Nothing: a read, an error, an idle step. -/
  | idle : Moves s s
  /-- A host write to CTX_IC (10_state.md R57). -/
  | writeIc (w : Word) : Moves s (s.writeIc w)
  /-- A host write to CTX_M (10_state.md R57). -/
  | writeM (w : Word) : Moves s (s.writeM w)
  /-- A host write to CTX_RES (10_state.md R57). -/
  | writeRes (w : Word) : Moves s (s.writeRes w)
  /-- A host write to CTX_J0 (10_state.md R57). -/
  | writeJ0 (w : Word) : Moves s (s.writeJ0 w)
  /-- A host write to a CFG register (10_state.md R56). -/
  | writeCfg (c : Cfg) : Moves s (s.writeCfg c)
  /-- A host store outside the regions of an open call (20_memory.md R122). -/
  | hostStore (addr : Nat) (bytes : List Byte) : addr + bytes.length ≤ Config.addressSpace →
      (∀ i < bytes.length, s.ownedByCall (addr + i) = false) →
      Moves s { s with mem := s.mem.writeBytes addr bytes }
  /-- Reset (70_reset_and_hazards.md R430). -/
  | reset : Moves s s.hardReset
  /-- BEGIN or CONV rejects its configuration (46_conv_sequencer.md R351). -/
  | close : Moves s s.close
  /-- MAC_TILE returns early (43_compute_loop.md R251). -/
  | dropAcc : Moves s { s with status := s.status.dropJ0 }
  /-- A command performs its effect. -/
  | command (i : Instr) : CommandReady i s → Moves s (commandEffect i s)

section
variable {s t : State}

theorem exec_moves {i : Instr} (h : exec i s = .next t) : ∃ u, Moves s u ∧ SameEngine u t := by
  cases exec_ends h with
  | error e => exact ⟨s, .idle, rfl, rfl, rfl, rfl, rfl, rfl⟩
  | rejected e _ => exact ⟨_, .close, rfl, rfl, rfl, rfl, rfl, rfl⟩
  | underrun n k _ => exact ⟨_, .dropAcc, rfl, rfl, rfl, rfl, rfl, rfl⟩
  | done v hready => exact ⟨_, .command i hready, rfl, rfl, rfl, rfl, rfl, rfl⟩

theorem writeReg_moves (s : State) (no : Nat) (w : Word) :
    ∃ u, Moves s u ∧ SameEngine u (s.writeReg no w) := by
  rcases writeReg_cases s no w with h | h | h | h | h | ⟨c, h⟩ | h
  · exact ⟨s, .idle, by rw [h]; exact ⟨rfl, rfl, rfl, rfl, rfl, rfl⟩⟩
  · exact ⟨_, .writeIc w, by rw [h]; exact ⟨rfl, rfl, rfl, rfl, rfl, rfl⟩⟩
  · exact ⟨_, .writeM w, by rw [h]; exact ⟨rfl, rfl, rfl, rfl, rfl, rfl⟩⟩
  · exact ⟨_, .writeRes w, by rw [h]; exact ⟨rfl, rfl, rfl, rfl, rfl, rfl⟩⟩
  · exact ⟨_, .writeJ0 w, by rw [h]; exact ⟨rfl, rfl, rfl, rfl, rfl, rfl⟩⟩
  · exact ⟨_, .writeCfg c, by rw [h]; exact ⟨rfl, rfl, rfl, rfl, rfl, rfl⟩⟩
  · exact ⟨s, .idle, by rw [h]; exact ⟨rfl, rfl, rfl, rfl, rfl, rfl⟩⟩

theorem transact_moves {x : HostTxn} (h : transact x s = .next t) : ∃ u, Moves s u ∧ SameEngine u t := by
  rcases transact_cases h with ⟨w, i, -, -, hexec⟩ | ⟨w, e, -, -, rfl⟩ | ⟨no, w, -, -, rfl⟩ | ⟨no, -, rfl⟩ |
    ⟨addr, bytes, -, hin, hfree, rfl⟩ | ⟨addr, len, -, rfl⟩ | ⟨-, rfl⟩
  · exact exec_moves hexec
  · exact ⟨s, .idle, rfl, rfl, rfl, rfl, rfl, rfl⟩
  · exact writeReg_moves s no w
  · exact ⟨s, .idle, rfl, rfl, rfl, rfl, rfl, rfl⟩
  · exact ⟨_, .hostStore addr bytes hin hfree, rfl, rfl, rfl, rfl, rfl, rfl⟩
  · exact ⟨s, .idle, rfl, rfl, rfl, rfl, rfl, rfl⟩
  · exact ⟨_, .reset, rfl, rfl, rfl, rfl, rfl, rfl⟩

/-- What every move of the engine keeps, every step keeps, if it does not depend on result registers and
sticky flags. -/
theorem step_keeps {P : State → Prop} (hsame : ∀ s t, SameEngine s t → P s → P t)
    (hmoves : ∀ s t, P s → Moves s t → P t) (hs : P s) (h : step s = .next t) : P t := by
  rcases step_cases s with ⟨-, hidle⟩ | ⟨x, rest, -, htxn⟩
  · cases hidle.symm.trans h
    exact hs
  · obtain ⟨u, hmove, hut⟩ := transact_moves (htxn.symm.trans h)
    have hpop : P { s with hostQueue := rest } := hsame s _ ⟨rfl, rfl, rfl, rfl, rfl, rfl⟩ hs
    exact hsame u t hut (hmoves _ u hpop hmove)

end

end Sys2Proof.Machine

/-! SUPPORT. The decomposition of the ring axis on a legal shape, and that every register the engine writes
holds its value without truncation. -/

namespace Sys2Proof.Machine

/-! ### The decomposition of the ring axis (45_decomposer.md R331, R333) -/

/-- What the decomposition of a legal ring axis satisfies (45_decomposer.md R331). -/
structure Axes.Lattice (x : Axes) : Prop where
  /-- `1 ≤ g` -/
  divisor : 1 ≤ x.commonDivisor
  /-- `g × COUNT = D_a` -/
  count : x.commonDivisor * x.classCount = x.dA
  /-- `g × RS = S_a` -/
  stride : x.commonDivisor * x.reducedStride = x.sA
  /-- `1 ≤ COUNT` -/
  count_pos : 1 ≤ x.classCount
  /-- `1 ≤ RS` -/
  stride_pos : 1 ≤ x.reducedStride

section
variable {x : Axes} (hx : x.Legal)
include hx

theorem Axes.Legal.lattice : x.Lattice := by
  obtain ⟨hs, -⟩ := hx.stride
  obtain ⟨hd, -⟩ := hx.dilation
  have hg : 0 < x.commonDivisor := by
    simpa [Axes.commonDivisor] using Nat.gcd_pos_of_pos_left x.sA.toNat (by omega : 0 < x.dA.toNat)
  have hgd : x.commonDivisor ∣ x.dA := by
    rw [← Int.toNat_of_nonneg hd.le, Axes.commonDivisor]
    exact_mod_cast Nat.gcd_dvd_left x.dA.toNat x.sA.toNat
  have hgs : x.commonDivisor ∣ x.sA := by
    rw [← Int.toNat_of_nonneg hs.le, Axes.commonDivisor]
    exact_mod_cast Nat.gcd_dvd_right x.dA.toNat x.sA.toNat
  exact ⟨hg, Int.mul_ediv_cancel' hgd, Int.mul_ediv_cancel' hgs,
    Int.ediv_pos_of_pos_of_dvd hd hg.le hgd, Int.ediv_pos_of_pos_of_dvd hs hg.le hgs⟩

theorem Axes.Legal.commonDivisor_le : x.commonDivisor ≤ x.dA := by
  have h := hx.lattice
  rw [← h.count]
  exact le_mul_of_one_le_right (by linarith [h.divisor]) h.count_pos

theorem Axes.Legal.classCount_le : x.classCount ≤ x.dA := by
  have h := hx.lattice
  rw [← h.count]
  exact le_mul_of_one_le_left (by linarith [h.count_pos]) h.divisor

theorem Axes.Legal.reducedStride_le : x.reducedStride ≤ x.sA := by
  have h := hx.lattice
  rw [← h.stride]
  exact le_mul_of_one_le_left (by linarith [h.stride_pos]) h.divisor

/-- Output j of class r exists exactly if it is an output of the ring axis. -/
theorem Axes.Legal.lt_subOutputs_iff (r : Int) {j : Int} (hj : 0 ≤ j) :
    j < x.subOutputs r ↔ j * x.classCount + r < x.outA := by
  have hc : 0 < x.classCount := hx.lattice.count_pos
  unfold Axes.subOutputs
  split
  · have : 0 ≤ j * x.classCount := Int.mul_nonneg hj hc.le
    omega
  · rw [← Int.add_one_le_iff, Int.le_ediv_iff_mul_le hc, add_mul, one_mul]
    omega

theorem Axes.Legal.subOutputs_nonneg (r : Int) : 0 ≤ x.subOutputs r := by
  have hc := hx.lattice.count_pos
  unfold Axes.subOutputs
  split
  · exact le_rfl
  · exact Int.ediv_nonneg (by omega) (by omega)

variable {r : Int} (hr : 0 ≤ r)
include hr

theorem Axes.Legal.subOutputs_le : x.subOutputs r ≤ x.outA := by
  obtain ⟨ho, -⟩ := hx.output
  by_contra h
  have hlt := (hx.lt_subOutputs_iff r ho.le).1 (by omega)
  have := le_mul_of_one_le_right ho.le hx.lattice.count_pos
  omega

/-- The last entry of a class lies inside the padded span of the ring axis (10_state.md R66). -/
theorem Axes.Legal.subEntries_le : x.subEntries r ≤ x.spanA := by
  have hl := hx.lattice
  obtain ⟨hk, -⟩ := hx.kernel
  obtain ⟨hs, -⟩ := hx.stride
  obtain ⟨hd, -⟩ := hx.dilation
  obtain ⟨ho, -⟩ := hx.output
  have hdke : 0 < x.dkeA := lt_of_lt_of_le hk hx.le_dkeA
  unfold Axes.subEntries
  split
  · have := Int.mul_nonneg (by omega : 0 ≤ x.outA - 1) hs.le
    unfold Axes.spanA
    omega
  · have hpos : 0 < x.subOutputs r := by have := hx.subOutputs_nonneg r; omega
    obtain ⟨j, hj⟩ : ∃ j, x.subOutputs r - 1 = j := ⟨_, rfl⟩
    have hlast : j * x.classCount + r < x.outA := (hx.lt_subOutputs_iff r (by omega)).1 (by omega)
    have hcross : x.classCount * x.sA = x.reducedStride * x.dA := by
      rw [← hl.count, ← hl.stride]
      ring
    have hout : j * x.classCount * x.sA ≤ (x.outA - 1) * x.sA :=
      Int.mul_le_mul_of_nonneg_right (by omega) hs.le
    have hn : 0 ≤ j * x.reducedStride := Int.mul_nonneg (by omega) (by linarith [hl.stride_pos])
    calc (x.subOutputs r - 1) * x.reducedStride + x.kA
        = (j * x.reducedStride + (x.kA - 1)) * 1 + 1 := by rw [hj]; ring
      _ ≤ (j * x.reducedStride + (x.kA - 1)) * x.dA + 1 := by
          have := Int.mul_le_mul_of_nonneg_left (by omega : 1 ≤ x.dA)
            (by omega : 0 ≤ j * x.reducedStride + (x.kA - 1))
          omega
      _ = j * x.classCount * x.sA + (x.kA - 1) * x.dA + 1 := by
          rw [mul_assoc, hcross]
          ring
      _ ≤ (x.outA - 1) * x.sA + ((x.kA - 1) * x.dA + 1) := by omega
      _ = x.spanA := rfl

omit hr

theorem Axes.Legal.subEntries_nonneg (r : Int) : 0 ≤ x.subEntries r := by
  obtain ⟨hk, -⟩ := hx.kernel
  have := hx.subOutputs_nonneg r
  unfold Axes.subEntries
  split
  · exact le_rfl
  · have := Int.mul_nonneg (by omega : 0 ≤ x.subOutputs r - 1)
      (by linarith [hx.lattice.stride_pos] : 0 ≤ x.reducedStride)
    omega

theorem Axes.Legal.subLead_bounds (r : Int) : 0 ≤ x.subLead r ∧ x.subLead r ≤ x.subEntries r := by
  have := hx.subEntries_nonneg r
  unfold Axes.subLead
  omega

end

theorem Axes.subEntries_of_pos {x : Axes} {r : Int} (h : 0 < x.subOutputs r) :
    x.subEntries r = (x.subOutputs r - 1) * x.reducedStride + x.kA := if_neg h.ne'

/-! ### Values that fit a register (40_planner.md R173) -/

/-- v is a count that a 32-bit signed register holds (00_scope.md R10 COUNT_MAX). -/
def IsCount (v : Int) : Prop := 0 ≤ v ∧ v ≤ Config.countMax

theorem toInt_ofInt_of_isCount {v : Int} (h : IsCount v) : (BitVec.ofInt 32 v).toInt = v := by
  obtain ⟨h0, h1⟩ := h
  refine BitVec.toInt_ofInt_eq_self (by norm_num) ?_ ?_
  · norm_num
    omega
  · simp only [Config.countMax] at h1
    norm_num
    omega

theorem toInt_le_countMax (w : Word) : w.toInt ≤ Config.countMax := by
  have := BitVec.toInt_lt (x := w)
  simp only [Config.countMax]
  omega

theorem IsCount.mono {v w : Int} (hw : IsCount w) (h0 : 0 ≤ v) (h : v ≤ w) : IsCount v :=
  ⟨h0, h.trans hw.2⟩

theorem isCount_toNat {w : Word} (h : 0 ≤ w.toInt) : (w.toNat : Int) = w.toInt := by
  have hlt := w.isLt
  rw [BitVec.toInt_eq_toNat_cond] at h ⊢
  split at h <;> omega

/-- The sizes the planner stores in registers fit them (10_state.md R52, R55). -/
structure PlanFits (p : Config.Params) (c : Cfg) : Prop where
  /-- `CB_CAP` -/
  cap : IsCount (c.ringCapacity p)
  /-- `CB_ENTRY_BYTES` -/
  entryBytes : IsCount c.entryBytes
  /-- `CB_LINE` -/
  line : IsCount c.axes.line
  /-- `LAY_CB` -/
  offCb : IsCount (Cfg.offCb p)
  /-- `LAY_KS` -/
  offKs : IsCount (c.offKs p)
  /-- `LAY_ACC` -/
  offAcc : IsCount (c.offAcc p)
  /-- `LAY_TOTAL` -/
  total : IsCount (c.scratchTotal p)
  /-- `LAY_KCPAD` -/
  kernelLine : IsCount (c.kernelLine p)
  /-- `SPAN_a`, which bounds `SUB_NENT`. -/
  spanA : c.axes.spanA ≤ Config.countMax

theorem ConfigLegal.shapeLegal {p : Config.Params} {c : Cfg} (h : ConfigLegal p c) : ShapeLegal c :=
  (checkShape_eq_none c).1 h.shape

theorem ConfigLegal.axes {p : Config.Params} {c : Cfg} (h : ConfigLegal p c) : c.axes.Legal :=
  h.shapeLegal.axes

theorem Prec.esIn_pos (p : Prec) : 0 < p.esIn := by rcases esIn_cases p with h | h | h <;> omega

theorem Prec.esK_pos (p : Prec) : 0 < p.esK := by rcases esK_cases p with h | h | h <;> omega

theorem planFits {p : Config.Params} {c : Cfg} (hp : p.ok = true) (hc : ShapeLegal c)
    (hcap : checkCapacity p c = none) : PlanFits p c := by
  have plan := planFacts hp hc
  have hx := hc.axes
  have fits : ∀ k v, (k, v) ∈ capacityQuantities p c → v ≤ Config.countMax :=
    fun k v => (checkCapacity_eq_none p c).1 hcap (k, v)
  have hspanC : c.axes.spanC ≤ Config.countMax := fits 3 _ (by simp only [capacityQuantities, List.mem_cons, true_or, or_true])
  have hspanA : c.axes.spanA ≤ Config.countMax := fits 4 _ (by simp only [capacityQuantities, List.mem_cons, true_or, or_true])
  have hline : c.axes.pC + c.axes.inC ≤ Config.countMax := fits 5 _ (by simp only [capacityQuantities, List.mem_cons, true_or, or_true])
  have hentry : c.entryBytes ≤ Config.countMax := fits 6 _ (by simp only [capacityQuantities, List.mem_cons, true_or, or_true])
  have hring : c.ringCapacity p ≤ Config.countMax := fits 7 _ (by simp only [capacityQuantities, List.mem_cons, true_or, or_true])
  have hstage : c.stagingBytes p ≤ Config.countMax := fits 9 _ (by simp only [capacityQuantities, List.mem_cons, true_or, or_true])
  have htotal : c.scratchTotal p ≤ Config.countMax := fits 11 _ (by simp only [capacityQuantities, List.mem_cons, true_or, or_true])
  have hcb : 0 ≤ Cfg.offCb p := Int.natCast_nonneg _
  obtain ⟨o1, o2, o3⟩ := plan.order
  obtain ⟨hk, -⟩ := hx.kernel
  have hkl : c.kernelLine p ≤ c.axes.kA * c.kernelLine p * c.precision.esK := by
    have h1 : c.kernelLine p ≤ c.axes.kA * c.kernelLine p := le_mul_of_one_le_left plan.staged.2.le hk
    exact h1.trans (le_mul_of_one_le_right (by linarith [plan.staged.2]) c.precision.esK_pos)
  exact ⟨⟨plan.cap.2.le, hring⟩, ⟨plan.entry.le, hentry⟩, ⟨hx.line_pos.le, max_le hspanC hline⟩,
    ⟨hcb, by omega⟩, ⟨by omega, by omega⟩, ⟨by omega, by omega⟩, ⟨by omega, htotal⟩,
    ⟨plan.staged.2.le, (hkl.trans plan.staging).trans hstage⟩, hspanA⟩

end Sys2Proof.Machine

/-! SUPPORT. The proofs of the family 10_state about every step: the invariant of the machine (O54, O55) and
the configuration, which no command writes (O19). -/

namespace Sys2Proof.Machine

/-! ### No command writes the configuration (10_state.md R32) -/

theorem commandEffect_keepsSetup (i : Instr) (s : State) : KeepsSetup s (commandEffect i s) := by
  cases i with
  | conv => exact (keptByConv_keepsSetup s).convolve ⟨rfl, rfl, rfl, rfl⟩
  | _ => exact ⟨rfl, rfl, rfl, rfl⟩

theorem commandEffect_ctx {i : Instr} (hi : i ≠ .conv) (s : State) : (commandEffect i s).ctx = s.ctx := by
  cases i with
  | conv => exact absurd rfl hi
  | _ => rfl

/-- Settles O19: an error writes result registers and STATUS, and no effect but CONV's writes more of the
setup than the context. -/
theorem commandsKeepConfiguration : Obligations.CommandsKeepConfiguration := by
  intro i s t h
  cases exec_ends h with
  | error e => exact ⟨⟨rfl, rfl, rfl, rfl⟩, fun _ => rfl⟩
  | rejected e _ => exact ⟨⟨rfl, rfl, rfl, rfl⟩, fun _ => rfl⟩
  | underrun n k _ => exact ⟨⟨rfl, rfl, rfl, rfl⟩, fun _ => rfl⟩
  | done v _ =>
    obtain ⟨hp, hc, hq, hr⟩ := commandEffect_keepsSetup i s
    exact ⟨⟨hp, hc, hq, hr⟩, fun hi => commandEffect_ctx hi s⟩

/-! ### What the parts of the invariant depend on -/

/-- The registers BEGIN stores (10_state.md R52, R55). -/
def Book.layoutWords (b : Book) : List Word :=
  [b.cbCap, b.cbEntryBytes, b.cbLine, b.layCb, b.layKs, b.layAcc, b.layTotal, b.layKcpad]

/-- The registers DECOMP stores (10_state.md R50). -/
def Book.decWords (b : Book) : List Word := [b.decG, b.decCount, b.decRstride]

/-- The registers of the ring (10_state.md R51, R52). -/
def Book.ringWords (b : Book) : List Word :=
  [b.subNout, b.subLead, b.subNent, b.cbCursor, b.cbCap, b.cbValid, b.cbFed]

section
variable {s t : State}

theorem LayoutStored.congr (h : LayoutStored s) (hp : t.params = s.params) (hc : t.cfg = s.cfg)
    (hb : t.book.layoutWords = s.book.layoutWords) : LayoutStored t := by
  simp only [Book.layoutWords, List.cons.injEq, and_true] at hb
  obtain ⟨b1, b2, b3, b4, b5, b6, b7, b8⟩ := hb
  constructor
  · rw [b1, hc, hp]; exact h.cap
  · rw [b2, hc]; exact h.entryBytes
  · rw [b3, hc]; exact h.line
  · rw [b4, hp]; exact h.offCb
  · rw [b5, hc, hp]; exact h.offKs
  · rw [b6, hc, hp]; exact h.offAcc
  · rw [b7, hc, hp]; exact h.total
  · rw [b8, hc, hp]; exact h.kernelLine

theorem DecompositionStored.congr (h : DecompositionStored s) (hc : t.cfg = s.cfg)
    (hb : t.book.decWords = s.book.decWords) : DecompositionStored t := by
  simp only [Book.decWords, List.cons.injEq, and_true] at hb
  obtain ⟨b1, b2, b3⟩ := hb
  constructor
  · rw [b1, hc]; exact h.g
  · rw [b2, hc]; exact h.count
  · rw [b3, hc]; exact h.rstride

theorem RingConsistent.congr (h : RingConsistent s) (hc : t.cfg = s.cfg) (hic : t.ctx.ic = s.ctx.ic)
    (hres : t.ctx.res = s.ctx.res) (hb : t.book.ringWords = s.book.ringWords) : RingConsistent t := by
  simp only [Book.ringWords, List.cons.injEq, and_true] at hb
  obtain ⟨b1, b2, b3, b4, b5, b6, b7⟩ := hb
  constructor
  · rw [hic, hc]; exact h.channel
  · rw [hres, hc]; exact h.resClass
  · rw [b1, hres, hc]; exact h.nout
  · rw [b2, hres, hc]; exact h.lead
  · rw [b3, hres, hc]; exact h.nent
  · rw [b4, b5, b7]; exact h.cursor
  · rw [b5, b6, b7]; exact h.valid
  · rw [b7, hres, hc]; exact h.fed

theorem TileConsistent.congr (h : TileConsistent s) (hp : t.params = s.params) (hj : t.ctx.j0 = s.ctx.j0)
    (haj : t.book.accJ0 = s.book.accJ0) (han : t.book.accN = s.book.accN)
    (hno : t.book.subNout = s.book.subNout) : TileConsistent t := by
  constructor
  · rw [haj, hj]; exact h.start
  · rw [han, hp]; exact h.size
  · rw [haj, han, hno]; exact h.inside

/-- With every state field of STATUS 0 the invariant promises nothing about registers. -/
theorem Inv.of_closed (hp : s.params.ok = true) (hm : s.mem.wf = true)
    (hst : s.status = s.status.close) : Inv s where
  params := hp
  mem := hm
  flags := by rw [hst]; exact ⟨nofun, nofun, fun h => absurd rfl h, nofun, nofun⟩
  config h := by rw [hst] at h; cases h
  layout h := by rw [hst] at h; cases h
  decomposition h := by rw [hst] at h; cases h
  ring h := by rw [hst] at h; exact absurd rfl h
  kernel h := by rw [hst] at h; cases h
  tile h := by rw [hst] at h; cases h

/-- Result registers and sticky flags are outside the invariant. -/
theorem Inv.of_sameEngine (h : Inv s) (ht : SameEngine s t) : Inv t := by
  obtain ⟨hp, hc, hx, hb, hm, hst⟩ := ht
  constructor
  · rw [hp]; exact h.params
  · rw [hm]; exact h.mem
  · rw [hst]; exact ⟨h.flags.dec, h.flags.kpad, h.flags.ring, h.flags.staged, h.flags.acc⟩
  · rw [hst, hp, hc]; exact h.config
  · rw [hst]; exact fun ho => (h.layout ho).congr hp hc (by rw [hb])
  · rw [hst]; exact fun hd => (h.decomposition hd).congr hc (by rw [hb])
  · rw [hst]; exact fun hr => (h.ring hr).congr hc (by rw [hx]) (by rw [hx]) (by rw [hb])
  · rw [hst, hx, hc]; exact h.kernel
  · rw [hst]
    exact fun ha => (h.tile ha).congr hp (by rw [hx]) (by rw [hb]) (by rw [hb]) (by rw [hb])

/-! ### Host writes keep the invariant (10_state.md R56, R57) -/

theorem Inv.writeIc (h : Inv s) (w : Word) : Inv (s.writeIc w) where
  params := h.params
  mem := h.mem
  flags := ⟨h.flags.dec, h.flags.kpad, fun hr => absurd rfl hr, nofun, nofun⟩
  config := h.config
  layout ho := (h.layout ho).congr rfl rfl rfl
  decomposition hd := (h.decomposition hd).congr rfl rfl
  ring hr := absurd rfl hr
  kernel := nofun
  tile := nofun

theorem Inv.writeM (h : Inv s) (w : Word) : Inv (s.writeM w) where
  params := h.params
  mem := h.mem
  flags := ⟨h.flags.dec, h.flags.kpad, h.flags.ring, nofun, nofun⟩
  config := h.config
  layout ho := (h.layout ho).congr rfl rfl rfl
  decomposition hd := (h.decomposition hd).congr rfl rfl
  ring hr := (h.ring hr).congr rfl rfl rfl rfl
  kernel := nofun
  tile := nofun

theorem Inv.writeRes (h : Inv s) (w : Word) : Inv (s.writeRes w) where
  params := h.params
  mem := h.mem
  flags := ⟨h.flags.dec, h.flags.kpad, fun hr => absurd rfl hr, h.flags.staged, nofun⟩
  config := h.config
  layout ho := (h.layout ho).congr rfl rfl rfl
  decomposition hd := (h.decomposition hd).congr rfl rfl
  ring hr := absurd rfl hr
  kernel := h.kernel
  tile := nofun

theorem Inv.writeJ0 (h : Inv s) (w : Word) : Inv (s.writeJ0 w) where
  params := h.params
  mem := h.mem
  flags := ⟨h.flags.dec, h.flags.kpad, h.flags.ring, h.flags.staged, nofun⟩
  config := h.config
  layout ho := (h.layout ho).congr rfl rfl rfl
  decomposition hd := (h.decomposition hd).congr rfl rfl
  ring hr := (h.ring hr).congr rfl rfl rfl rfl
  kernel := h.kernel
  tile := nofun

theorem Inv.dropAcc (h : Inv s) : Inv { s with status := s.status.dropJ0 } :=
  (h.writeJ0 s.ctx.j0).of_sameEngine ⟨rfl, rfl, rfl, rfl, rfl, rfl⟩

/-! ### Commands keep the invariant -/

/-- A change of memory to another canonical one is outside the invariant. -/
theorem Inv.withMem (h : Inv s) {m : Memory} (hm : m.wf = true) : Inv { s with mem := m } where
  params := h.params
  mem := hm
  flags := h.flags
  config := h.config
  layout ho := (h.layout ho).congr rfl rfl rfl
  decomposition hd := (h.decomposition hd).congr rfl rfl
  ring hr := (h.ring hr).congr rfl rfl rfl rfl
  kernel := h.kernel
  tile ha := (h.tile ha).congr rfl rfl rfl rfl rfl

theorem Inv.storing (h : Inv s) (l : List Store) : Inv (s.store l) := h.withMem (wf_applyStores l h.mem)

/-- The registers BEGIN writes hold the plan of the configuration (40_planner.md R175). -/
theorem layoutStored_openCall (hp : s.params.ok = true) (hc : ConfigLegal s.params s.cfg) :
    LayoutStored (openCall s) := by
  have fits := planFits hp hc.shapeLegal hc.capacity
  exact ⟨toInt_ofInt_of_isCount fits.cap, toInt_ofInt_of_isCount fits.entryBytes,
    toInt_ofInt_of_isCount fits.line, toInt_ofInt_of_isCount fits.offCb,
    toInt_ofInt_of_isCount fits.offKs, toInt_ofInt_of_isCount fits.offAcc,
    toInt_ofInt_of_isCount fits.total, toInt_ofInt_of_isCount fits.kernelLine⟩

theorem Inv.opens (h : Inv s) (hv : callVerdict s.params s.cfg s.mem = .accept) :
    Inv (openCall s.close) where
  params := h.params
  mem := h.mem
  flags := ⟨nofun, nofun, fun hr => absurd rfl hr, nofun, nofun⟩
  config _ := (callVerdict_accept.1 hv).1
  layout _ := layoutStored_openCall (s := s.close) h.params (callVerdict_accept.1 hv).1
  decomposition := nofun
  ring hr := absurd rfl hr
  kernel := nofun
  tile := nofun

theorem decompositionStored_decompose (hc : ShapeLegal s.cfg) : DecompositionStored (decompose s) := by
  have hx := hc.axes
  have hl := hx.lattice
  have hdA : s.cfg.axes.dA ≤ Config.countMax := by
    unfold Cfg.axes
    split <;> exact toInt_le_countMax _
  have hsA : s.cfg.axes.sA ≤ Config.countMax := by
    unfold Cfg.axes
    split <;> exact toInt_le_countMax _
  have h1 := hl.divisor
  have h2 := hl.count_pos
  have h3 := hl.stride_pos
  exact ⟨toInt_ofInt_of_isCount ⟨by omega, hx.commonDivisor_le.trans hdA⟩,
    toInt_ofInt_of_isCount ⟨by omega, hx.classCount_le.trans hdA⟩,
    toInt_ofInt_of_isCount ⟨by omega, hx.reducedStride_le.trans hsA⟩⟩

theorem Inv.decomposes (h : Inv s) (ho : s.status.callOpen = true) : Inv (decompose s) where
  params := h.params
  mem := h.mem
  flags := ⟨fun _ => ho, h.flags.kpad, fun _ => rfl, h.flags.staged, h.flags.acc⟩
  config := h.config
  layout ho := (h.layout ho).congr rfl rfl rfl
  decomposition _ := decompositionStored_decompose (h.config ho).shapeLegal
  ring hr := (h.ring hr).congr rfl rfl rfl rfl
  kernel := h.kernel
  tile ha := (h.tile ha).congr rfl rfl rfl rfl rfl

/-- The registers CB_INIT writes describe the class of CTX_RES (41_circular_buffer.md R192). -/
theorem ringConsistent_initRing (hp : s.params.ok = true) (hc : ConfigLegal s.params s.cfg)
    (hlay : LayoutStored s) (hdec : DecompositionStored s) (hpre : cbInitPre s = none) :
    RingConsistent (initRing s) := by
  obtain ⟨-, -, hic, hres0, hres1⟩ := (cbInitPre_eq_none s).1 hpre
  have hx := hc.axes
  have fits := planFits hp hc.shapeLegal hc.capacity
  have hout : s.cfg.axes.outA ≤ Config.countMax := by
    unfold Cfg.axes
    split <;> exact toInt_le_countMax _
  have hent := hx.subEntries_le hres0
  have hlead := hx.subLead_bounds s.ctx.res.toInt
  have hent0 := hx.subEntries_nonneg s.ctx.res.toInt
  have hspan := fits.spanA
  refine ⟨hic, ⟨hres0, hdec.count ▸ hres1⟩,
    toInt_ofInt_of_isCount ⟨hx.subOutputs_nonneg _, (hx.subOutputs_le hres0).trans hout⟩,
    toInt_ofInt_of_isCount ⟨hlead.1, by omega⟩, toInt_ofInt_of_isCount ⟨hent0, by omega⟩, ?_, ?_, hent0⟩
  · exact (Int.zero_emod _).symm
  · have : 0 ≤ s.book.cbCap.toInt := hlay.cap ▸ fits.cap.1
    exact ⟨le_rfl, this, le_rfl⟩

theorem Inv.primes (h : Inv s) (hpre : cbInitPre s = none) : Inv (initRing s) := by
  obtain ⟨ho, hd, -, -⟩ := (cbInitPre_eq_none s).1 hpre
  exact {
    params := h.params
    mem := wf_applyStores _ h.mem
    flags := ⟨h.flags.dec, h.flags.kpad, fun _ => hd, h.flags.staged, nofun⟩
    config := h.config
    layout := fun _ => (h.layout ho).congr rfl rfl rfl
    decomposition := fun _ => (h.decomposition hd).congr rfl rfl
    ring := fun _ =>
      ringConsistent_initRing h.params (h.config ho) (h.layout ho) (h.decomposition hd) hpre
    kernel := h.kernel
    tile := nofun }

/-- What CB_FEED computes with, in terms of the axes (41_circular_buffer.md R194). -/
structure FeedFacts (n : Nat) (s : State) : Prop where
  /-- No entry number is negative. -/
  start : 0 ≤ s.tileStart
  /-- A tile needs an entry. -/
  need : 0 < s.tileNeed n
  /-- The class consumes every entry of the tile. -/
  inside : s.tileStart + s.tileNeed n ≤ s.cfg.axes.subEntries s.ctx.res.toInt
  /-- The ring has a slot. -/
  cap : 0 < s.book.cbCap.toInt

/-- The last output of the tile is an output of the class, and its last entry the class's
(45_decomposer.md R333). -/
theorem Inv.feedFacts (h : Inv s) {n : Nat} (hring : s.status.cbState ≠ .uninitialized)
    (hn : 1 ≤ n ∧ n ≤ s.params.rIter)
    (hplace : 0 ≤ s.ctx.j0.toInt ∧ s.ctx.j0.toInt + n ≤ s.book.subNout.toInt) : FeedFacts n s := by
  have hd := h.flags.ring hring
  have ho := h.flags.dec hd
  have hx := (h.config ho).axes
  have hrs := hx.lattice.stride_pos
  obtain ⟨hk, -⟩ := hx.kernel
  have hnout := (h.ring hring).nout
  have hrstride := (h.decomposition hd).rstride
  have hn1 : (1 : Int) ≤ n := by exact_mod_cast hn.1
  have hprod : 0 ≤ ((n : Int) - 1) * s.cfg.axes.reducedStride := Int.mul_nonneg (by omega) (by omega)
  refine ⟨?_, ?_, ?_, ?_⟩
  · rw [State.tileStart, hrstride]
    exact Int.mul_nonneg hplace.1 (by omega)
  · rw [State.tileNeed, hrstride]
    omega
  · rw [State.tileStart, State.tileNeed, hrstride, Axes.subEntries_of_pos (by omega)]
    have : (s.ctx.j0.toInt + n - 1) * s.cfg.axes.reducedStride ≤
        (s.cfg.axes.subOutputs s.ctx.res.toInt - 1) * s.cfg.axes.reducedStride :=
      Int.mul_le_mul_of_nonneg_right (by omega) (by omega)
    linarith
  · rw [(h.layout ho).cap]
    exact (planFacts h.params (h.config ho).shapeLegal).cap.2

theorem ringConsistent_feedRing {n : Nat} (hring : RingConsistent s) (feed : FeedFacts n s)
    (hspan : s.cfg.axes.subEntries s.ctx.res.toInt ≤ Config.countMax) : RingConsistent (feedRing n s) := by
  obtain ⟨hstart, hneed, hinside, hcap⟩ := feed
  obtain ⟨hv0, hv1, hv2⟩ := hring.valid
  have hfed := hring.fed
  have hcapmax := toInt_le_countMax s.book.cbCap
  have hcount : 0 ≤ s.feedCount n ∧
      s.book.cbFed.toInt + s.feedCount n = max s.book.cbFed.toInt (s.tileStart + s.tileNeed n) := by
    unfold State.feedCount
    omega
  have hfedCount : IsCount (s.book.cbFed.toInt + s.feedCount n) := ⟨by omega, by omega⟩
  have hkeep : 0 ≤ s.feedKeepFrom n ∧ s.feedKeepFrom n ≤ s.book.cbFed.toInt + s.feedCount n ∧
      s.book.cbFed.toInt + s.feedCount n - s.feedKeepFrom n ≤ s.book.cbCap.toInt := by
    unfold State.feedKeepFrom State.oldestEntry
    omega
  have hvalid : IsCount (s.book.cbFed.toInt + s.feedCount n - s.feedKeepFrom n) :=
    ⟨by omega, by omega⟩
  have hcursor : s.feedSlot (s.feedCount n) =
      (s.book.cbFed.toInt + s.feedCount n) % s.book.cbCap.toInt := by
    rw [State.feedSlot, hring.cursor, Int.emod_add_emod]
  have hslot : IsCount (s.feedSlot (s.feedCount n)) := by
    have hlt := Int.emod_lt_of_pos (s.book.cbFed.toInt + s.feedCount n) hcap
    rw [hcursor]
    exact ⟨Int.emod_nonneg _ hcap.ne', by omega⟩
  refine ⟨hring.channel, hring.resClass, hring.nout, hring.lead, hring.nent, ?_, ?_, ?_⟩
  · rw [feedRing_book_cbCursor, feedRing_book_cbFed, feedRing_book_cbCap, toInt_ofInt_of_isCount hslot,
      toInt_ofInt_of_isCount hfedCount, hcursor]
  · rw [feedRing_book_cbValid, feedRing_book_cbFed, feedRing_book_cbCap, toInt_ofInt_of_isCount hvalid,
      toInt_ofInt_of_isCount hfedCount]
    exact ⟨hvalid.1, hkeep.2.2, by omega⟩
  · rw [feedRing_book_cbFed, toInt_ofInt_of_isCount hfedCount]
    simp only [feedRing_cfg, feedRing_ctx]
    omega

theorem Inv.subEntries_le_countMax (h : Inv s) (hring : s.status.cbState ≠ .uninitialized) :
    s.cfg.axes.subEntries s.ctx.res.toInt ≤ Config.countMax := by
  rw [← (h.ring hring).nent]
  exact toInt_le_countMax _

theorem Inv.feeds (h : Inv s) {n : Nat} (hpre : cbFeedPre n s = none) : Inv (feedRing n s) := by
  obtain ⟨ho, hring, hn, hplace⟩ := (cbFeedPre_eq_none n s).1 hpre
  have hd := h.flags.ring hring
  exact {
    params := h.params
    mem := wf_applyStores _ h.mem
    flags := ⟨h.flags.dec, h.flags.kpad, fun _ => hd, h.flags.staged, nofun⟩
    config := h.config
    layout := fun _ => (h.layout ho).congr rfl rfl rfl
    decomposition := fun _ => (h.decomposition hd).congr rfl rfl
    ring := fun _ =>
      ringConsistent_feedRing (h.ring hring) (h.feedFacts hring hn hplace) (h.subEntries_le_countMax hring)
    kernel := h.kernel
    tile := nofun }

theorem Inv.clears (h : Inv s) (ho : s.status.callOpen = true) : Inv (clearStaging s) where
  params := h.params
  mem := wf_applyStores _ h.mem
  flags := ⟨h.flags.dec, fun _ => ho, h.flags.ring, nofun, nofun⟩
  config := h.config
  layout ho := (h.layout ho).congr rfl rfl rfl
  decomposition hd := (h.decomposition hd).congr rfl rfl
  ring hr := (h.ring hr).congr rfl rfl rfl rfl
  kernel := nofun
  tile := nofun

theorem Inv.stages (h : Inv s) (hpre : kstagePre s = none) : Inv (stageKernel s) := by
  obtain ⟨ho, hk, hic, hm⟩ := (kstagePre_eq_none s).1 hpre
  exact {
    params := h.params
    mem := wf_applyStores _ h.mem
    flags := ⟨h.flags.dec, h.flags.kpad, h.flags.ring, fun _ => hk, nofun⟩
    config := h.config
    layout := fun ho => (h.layout ho).congr rfl rfl rfl
    decomposition := fun hd => (h.decomposition hd).congr rfl rfl
    ring := fun hr => (h.ring hr).congr rfl rfl rfl rfl
    kernel := fun _ => ⟨hic.1, hic.2, hm.1, hm.2⟩
    tile := nofun }

theorem tileConsistent_computeTile {n : Nat} (hp : s.params.ok = true)
    (hn : 1 ≤ n ∧ n ≤ s.params.rIter)
    (hplace : 0 ≤ s.ctx.j0.toInt ∧ s.ctx.j0.toInt + n ≤ s.book.subNout.toInt) :
    TileConsistent (computeTile n s) := by
  obtain ⟨-, hr, -⟩ := (params_ok_iff _).1 hp
  have hN : (computeTile n s).book.accN.toInt = n := by
    rw [computeTile_book, BitVec.toInt_ofNat', Int.bmod_def]
    norm_num
    omega
  refine ⟨⟨rfl, hplace.1⟩, ?_, ?_⟩
  · rw [hN]
    exact ⟨by omega, by exact_mod_cast hn.2⟩
  · rw [hN]
    exact hplace.2

theorem Inv.computes (h : Inv s) {n : Nat} (hpre : macTilePre n s = none) : Inv (computeTile n s) := by
  obtain ⟨ho, hring, hk, hn, hplace⟩ := (macTilePre_eq_none n s).1 hpre
  exact {
    params := h.params
    mem := wf_applyStores _ h.mem
    flags := ⟨h.flags.dec, h.flags.kpad, h.flags.ring, h.flags.staged, fun _ => ⟨hk, hring⟩⟩
    config := h.config
    layout := fun ho => (h.layout ho).congr rfl rfl rfl
    decomposition := fun hd => (h.decomposition hd).congr rfl rfl
    ring := fun hr => (h.ring hr).congr rfl rfl rfl rfl
    kernel := h.kernel
    tile := fun _ => tileConsistent_computeTile h.params hn hplace }

theorem Inv.writes (h : Inv s) : Inv (writeTile s) :=
  (h.storing (reqWriteStores s)).dropAcc

theorem Inv.command (h : Inv s) {i : Instr} (hready : CommandReady i s) : Inv (commandEffect i s) := by
  cases i with
  | nop => exact h
  | getsize => exact h
  | callBegin => exact h.opens hready
  | callEnd => exact .of_closed h.params (wf_forgetRange _ _ _ h.mem) rfl
  | conv =>
    refine .of_closed ?_ (keptByConv_mem_wf.convolve h.mem) (convolve_status_closed _)
    rw [(commandEffect_keepsSetup .conv s).params]
    exact h.params
  | decomp => exact h.decomposes hready
  | cbInit => exact h.primes hready
  | cbFeed n => exact h.feeds hready
  | ksClear => exact h.clears hready
  | kstage => exact h.stages hready
  | macTile n => exact h.computes hready.1
  | reqWrite => exact h.writes

theorem Inv.moves (h : Inv s) (hmove : Moves s t) : Inv t := by
  cases hmove with
  | idle => exact h
  | writeIc w => exact h.writeIc w
  | writeM w => exact h.writeM w
  | writeRes w => exact h.writeRes w
  | writeJ0 w => exact h.writeJ0 w
  | writeCfg c => exact .of_closed h.params h.mem rfl
  | hostStore addr bytes hin _ => exact h.withMem (wf_writeBytes h.mem hin)
  | reset => exact .of_closed h.params h.mem rfl
  | close => exact .of_closed h.params h.mem rfl
  | dropAcc => exact h.dropAcc
  | command i hready => exact h.command hready

end

/-- Settles O55: every move of the engine keeps the invariant, which result registers and sticky flags do not
enter. -/
theorem stepKeepsInvariant : Obligations.StepKeepsInvariant := by
  intro s t h hstep
  exact step_keeps (fun _ _ hsame hs => hs.of_sameEngine hsame) (fun _ _ hs => hs.moves) h hstep

/-- Settles O54: after reset no flag is set. -/
theorem resetMeetsInvariant : Obligations.ResetMeetsInvariant := .of_closed rfl wf_empty rfl

end Sys2Proof.Machine

/-! SUPPORT. The proofs of the family 10_state about the argument checks (O25): each group of steps of
`CheckArgs()` as a chain of tests, the chain of all, and the shift array. -/

namespace Sys2Proof.Machine

/-! ### The groups of steps A1 to A8 (46_conv_sequencer.md R352) -/

/-- A check put before others, by what makes it fail. -/
theorem firstFailure_unless (p : Prop) [Decidable p] (e : CmdError) (t : List (Option CmdError)) :
    firstFailure ((if p then none else some e) :: t) = if ¬p then some e else firstFailure t := by
  rw [firstFailure_ite, ite_not]

theorem toNat_ne_zero_iff (w : Word) : w.toNat ≠ 0 ↔ w ≠ 0 := by
  rw [ne_eq, ne_eq, ← BitVec.toNat_inj]
  rfl

theorem require_nonnull (w : Word) (i : Nat) :
    require (decide (w.toNat ≠ 0)) .nullPtr i =
      if w ≠ 0 then none else some { cause := .nullPtr, info := i } := by
  simp only [require_decide, toNat_ne_zero_iff]

section
variable {c : Cfg} {arrays clamps : Bool} (t : List (Option CmdError))

/-- Step A1. -/
theorem firstFailure_nullChecks (ha : c.precision.perChannel = arrays) :
    firstFailure
        (c.pointerRegisters.map (fun r => require (decide (r.2.1.toNat ≠ 0)) .nullPtr r.1) ++ t) =
      if c.inPtr = 0 then some { cause := .nullPtr, info := 0x08 }
      else if c.kerPtr = 0 then some { cause := .nullPtr, info := 0x09 }
      else if c.biasPtr = 0 then some { cause := .nullPtr, info := 0x0A }
      else if c.outPtr = 0 then some { cause := .nullPtr, info := 0x0B }
      else if c.scratchPtr = 0 then some { cause := .nullPtr, info := 0x0C }
      else if arrays = true ∧ c.multPtr = 0 then some { cause := .nullPtr, info := 0x0D }
      else if arrays = true ∧ c.shiftPtr = 0 then some { cause := .nullPtr, info := 0x0E }
      else firstFailure t := by
  simp only [Cfg.pointerRegisters, require_nonnull, ha]
  cases arrays <;>
    simp only [if_true, if_false, List.append_nil, List.map_cons, List.map_nil, List.cons_append,
      List.nil_append, firstFailure_unless, not_not, true_and, false_and, reduceCtorEq]

/-- Steps A2 and A3. -/
theorem firstFailure_alignmentChecks (ha : c.precision.perChannel = arrays) :
    firstFailure
        (c.pointerRegisters.map (fun r => require (decide (r.2.1.toNat % r.2.2 = 0)) .misaligned r.1) ++ t) =
      if c.inPtr.toNat % c.precision.tIn.size ≠ 0 then some { cause := .misaligned, info := 0x08 }
      else if c.kerPtr.toNat % c.precision.tK.size ≠ 0 then some { cause := .misaligned, info := 0x09 }
      else if c.biasPtr.toNat % c.precision.tB.size ≠ 0 then some { cause := .misaligned, info := 0x0A }
      else if c.outPtr.toNat % c.precision.tOut.size ≠ 0 then some { cause := .misaligned, info := 0x0B }
      else if c.scratchPtr.toNat % 8 ≠ 0 then some { cause := .misaligned, info := 0x0C }
      else if arrays = true ∧ c.multPtr.toNat % 4 ≠ 0 then some { cause := .misaligned, info := 0x0D }
      else if arrays = true ∧ c.shiftPtr.toNat % 4 ≠ 0 then some { cause := .misaligned, info := 0x0E }
      else firstFailure t := by
  simp only [Cfg.pointerRegisters, require_decide, ha]
  cases arrays <;>
    simp only [if_true, if_false, List.append_nil, List.map_cons, List.map_nil, List.cons_append,
      List.nil_append, firstFailure_unless, true_and, false_and, reduceCtorEq, ne_eq]

/-- Steps A4 and A5. -/
theorem firstFailure_shiftChecks :
    firstFailure (shiftChecks c ++ t) =
      if (c.precision = .i8 ∨ c.precision = .i16) ∧ ¬(0 ≤ c.accShift.toInt ∧ c.accShift.toInt ≤ 31) then
        some { cause := .shift, info := 0x25 }
      else if (c.precision = .i8 ∨ c.precision = .i16) ∧
          ¬(0 ≤ c.biasShift.toInt ∧ c.biasShift.toInt ≤ 31) then
        some { cause := .shift, info := 0x26 }
      else if c.precision = .asym8 ∧ ¬(-31 ≤ c.outShift.toInt ∧ c.outShift.toInt ≤ 31) then
        some { cause := .shift, info := 0x24 }
      else firstFailure t := by
  cases hp : c.precision <;>
    simp only [shiftChecks, hp, requireRange_eq, List.cons_append, List.nil_append, firstFailure_unless,
      reduceCtorEq, or_true, or_false, true_and, false_and, if_false]

/-- Steps A6 and A7. -/
theorem firstFailure_zeroPointChecks :
    firstFailure (zeroPointChecks c ++ t) =
      if (c.precision = .asym8 ∨ c.precision = .pc8) ∧
          ¬(-127 ≤ c.inZb.toInt ∧ c.inZb.toInt ≤ 128) then
        some { cause := .zeroPoint, info := 0x20 }
      else if c.precision = .asym8 ∧ ¬(-127 ≤ c.kerZb.toInt ∧ c.kerZb.toInt ≤ 128) then
        some { cause := .zeroPoint, info := 0x21 }
      else if (c.precision = .asym8 ∨ c.precision = .pc8) ∧
          ¬(-128 ≤ c.outZp.toInt ∧ c.outZp.toInt ≤ 127) then
        some { cause := .zeroPoint, info := 0x22 }
      else firstFailure t := by
  cases hp : c.precision <;>
    simp only [zeroPointChecks, hp, requireRange_eq, List.cons_append, List.nil_append, firstFailure_unless,
      reduceCtorEq, or_true, or_false, true_and, false_and, if_false]

/-- Step A8. -/
theorem firstFailure_clampChecks {lo hi : Int} (hc : c.precision.clampsToRegisters = clamps)
    (hrange : clamps = true → c.precision.tOut.lo = lo ∧ c.precision.tOut.hi = hi) :
    firstFailure (clampChecks c) =
      if clamps = true ∧ ¬(lo ≤ c.outMin.toInt ∧ c.outMin.toInt ≤ hi) then
        some { cause := .clampRange, info := 0x27 }
      else if clamps = true ∧ ¬(lo ≤ c.outMax.toInt ∧ c.outMax.toInt ≤ hi) then
        some { cause := .clampRange, info := 0x28 }
      else if clamps = true ∧ ¬(c.outMin.toInt ≤ c.outMax.toInt) then
        some { cause := .clampRange, info := 0x2728 }
      else none := by
  simp only [clampChecks, requireRange_eq, require_decide, hc]
  cases clamps with
  | false => simp only [if_false, firstFailure, false_and, reduceCtorEq]
  | true =>
    obtain ⟨rfl, rfl⟩ := hrange rfl
    simp only [if_true, firstFailure_unless, firstFailure, true_and]

end

theorem perChannel_iff (p : Prec) : p.perChannel = true ↔ p = .pc8 ∨ p = .s8s16 := by
  cases p <;> decide

theorem clampsToRegisters_iff (p : Prec) :
    p.clampsToRegisters = true ↔ p = .asym8 ∨ p = .pc8 ∨ p = .s8s16 := by
  cases p <;> decide

/-- The clamp range of the precisions that clamp to registers (10_state.md R48). -/
theorem clampRange_eq {p : Prec} (h : p.clampsToRegisters = true) :
    p.tOut.lo = (if p = .s8s16 then -32768 else -128) ∧ p.tOut.hi = (if p = .s8s16 then 32767 else 127) := by
  cases p <;> revert h <;> decide

/-! ### The shift array, step A9 -/

/-- Checks numbered in order, as what fails first. -/
theorem firstFailure_range_eq_some {n k : Nat} {f : Nat → Option CmdError} {e : CmdError} (hk : k < n)
    (hfail : f k = some e) (hbefore : ∀ j < k, f j = none) :
    firstFailure ((List.range n).map f) = some e := by
  induction n generalizing k f with
  | zero => omega
  | succ n ih =>
    rw [List.range_succ_eq_map, List.map_cons, List.map_map]
    cases k with
    | zero => simp [hfail, firstFailure]
    | succ k =>
      rw [hbefore 0 (by omega), firstFailure]
      exact ih (by omega) hfail fun j hj => hbefore (j + 1) (by omega)

/-- The check of one element of the shift array. -/
def shiftElemCheck (c : Cfg) (m : Memory) (oc : Nat) : Option CmdError :=
  require (decide (-31 ≤ shiftElem c m oc) && decide (shiftElem c m oc ≤ 31)) .shift
    (0x0E + 256 * (oc % 2 ^ 24))

theorem shiftElemCheck_eq_none (c : Cfg) (m : Memory) (oc : Nat) :
    shiftElemCheck c m oc = none ↔ -31 ≤ shiftElem c m oc ∧ shiftElem c m oc ≤ 31 := by
  simp [shiftElemCheck]

theorem checkShiftArray_of_perChannel {c : Cfg} (h : c.precision.perChannel = true) (m : Memory) :
    checkShiftArray c m = firstFailure ((List.range c.outChannels.toNat).map (shiftElemCheck c m)) :=
  if_pos h

theorem checkShiftArray_eq_none {c : Cfg} (h : c.precision.perChannel = true) (m : Memory) :
    checkShiftArray c m = none ↔ ∀ oc : Nat, (oc : Int) < c.outChannels →
      -31 ≤ shiftElem c m oc ∧ shiftElem c m oc ≤ 31 := by
  rw [checkShiftArray_of_perChannel h, firstFailure_eq_none]
  simp only [List.mem_map, List.mem_range, forall_exists_index, and_imp, forall_apply_eq_imp_iff₂,
    shiftElemCheck_eq_none, Int.lt_toNat]

theorem checkShiftArray_eq_some {c : Cfg} (h : c.precision.perChannel = true) {m : Memory} {oc : Nat}
    (hoc : (oc : Int) < c.outChannels) (hfail : shiftElem c m oc < -31 ∨ 31 < shiftElem c m oc)
    (hbefore : ∀ j : Nat, j < oc → -31 ≤ shiftElem c m j ∧ shiftElem c m j ≤ 31) :
    checkShiftArray c m = some { cause := .shift, info := 0x0E + 256 * (oc % 2 ^ 24) } := by
  rw [checkShiftArray_of_perChannel h]
  refine firstFailure_range_eq_some (Int.lt_toNat.2 hoc) ?_
    fun j hj => (shiftElemCheck_eq_none c m j).2 (hbefore j hj)
  rw [shiftElemCheck, ← Bool.decide_and, require_decide, if_neg (by omega)]

/-! ### The whole of `CheckArgs()` -/

/-- What the steps A1 to A8 demand (46_conv_sequencer.md R352, 20_memory.md R104). -/
structure ArgsLegal (c : Cfg) : Prop where
  /-- A1 -/
  nonnull : c.inPtr ≠ 0 ∧ c.kerPtr ≠ 0 ∧ c.biasPtr ≠ 0 ∧ c.outPtr ≠ 0 ∧ c.scratchPtr ≠ 0
  /-- A1, the arrays. -/
  nonnullArrays : c.precision = .pc8 ∨ c.precision = .s8s16 → c.multPtr ≠ 0 ∧ c.shiftPtr ≠ 0
  /-- A2 -/
  aligned : c.inPtr.toNat % c.precision.tIn.size = 0 ∧ c.kerPtr.toNat % c.precision.tK.size = 0 ∧
    c.biasPtr.toNat % c.precision.tB.size = 0 ∧ c.outPtr.toNat % c.precision.tOut.size = 0 ∧
    c.scratchPtr.toNat % 8 = 0
  /-- A3 -/
  alignedArrays : c.precision = .pc8 ∨ c.precision = .s8s16 →
    c.multPtr.toNat % 4 = 0 ∧ c.shiftPtr.toNat % 4 = 0
  /-- A4 -/
  shifts : c.precision = .i8 ∨ c.precision = .i16 →
    0 ≤ c.accShift.toInt ∧ c.accShift.toInt ≤ 31 ∧ 0 ≤ c.biasShift.toInt ∧ c.biasShift.toInt ≤ 31
  /-- A5 and A7. -/
  asym : c.precision = .asym8 → -31 ≤ c.outShift.toInt ∧ c.outShift.toInt ≤ 31 ∧
    -127 ≤ c.kerZb.toInt ∧ c.kerZb.toInt ≤ 128
  /-- A6 and A8, the 8-bit precisions. -/
  quantized8 : c.precision = .asym8 ∨ c.precision = .pc8 → -127 ≤ c.inZb.toInt ∧ c.inZb.toInt ≤ 128 ∧
    -128 ≤ c.outZp.toInt ∧ c.outZp.toInt ≤ 127 ∧ -128 ≤ c.outMin.toInt ∧
    c.outMin.toInt ≤ c.outMax.toInt ∧ c.outMax.toInt ≤ 127
  /-- A8, the 16-bit precision. -/
  quantized16 : c.precision = .s8s16 → -32768 ≤ c.outMin.toInt ∧ c.outMin.toInt ≤ c.outMax.toInt ∧
    c.outMax.toInt ≤ 32767

theorem firstFailure_append_eq_none (l l' : List (Option CmdError)) :
    firstFailure (l ++ l') = none ↔ firstFailure l = none ∧ firstFailure l' = none := by
  simp only [firstFailure_eq_none, List.mem_append, or_imp, forall_and]

@[simp] theorem requireRange_eq_none (w : Word) (lo hi : Int) (c : Cause) (i : Nat) :
    requireRange w lo hi c i = none ↔ lo ≤ w.toInt ∧ w.toInt ≤ hi := by
  simp [requireRange]

section
variable (c : Cfg)

theorem nullChecks_eq_none :
    firstFailure (c.pointerRegisters.map fun r => require (decide (r.2.1.toNat ≠ 0)) .nullPtr r.1) = none ↔
      (c.inPtr ≠ 0 ∧ c.kerPtr ≠ 0 ∧ c.biasPtr ≠ 0 ∧ c.outPtr ≠ 0 ∧ c.scratchPtr ≠ 0) ∧
      (c.precision = .pc8 ∨ c.precision = .s8s16 → c.multPtr ≠ 0 ∧ c.shiftPtr ≠ 0) := by
  rw [← perChannel_iff, firstFailure_eq_none]
  cases hp : c.precision.perChannel <;>
    simp [Cfg.pointerRegisters, hp, ← BitVec.toNat_inj, and_assoc]

theorem alignmentChecks_eq_none :
    firstFailure
        (c.pointerRegisters.map fun r => require (decide (r.2.1.toNat % r.2.2 = 0)) .misaligned r.1) = none ↔
      (c.inPtr.toNat % c.precision.tIn.size = 0 ∧ c.kerPtr.toNat % c.precision.tK.size = 0 ∧
        c.biasPtr.toNat % c.precision.tB.size = 0 ∧ c.outPtr.toNat % c.precision.tOut.size = 0 ∧
        c.scratchPtr.toNat % 8 = 0) ∧
      (c.precision = .pc8 ∨ c.precision = .s8s16 → c.multPtr.toNat % 4 = 0 ∧ c.shiftPtr.toNat % 4 = 0) := by
  rw [← perChannel_iff, firstFailure_eq_none]
  cases hp : c.precision.perChannel <;> simp [Cfg.pointerRegisters, hp, and_assoc]

theorem shiftChecks_eq_none :
    firstFailure (shiftChecks c) = none ↔
      (c.precision = .i8 ∨ c.precision = .i16 → 0 ≤ c.accShift.toInt ∧ c.accShift.toInt ≤ 31 ∧
        0 ≤ c.biasShift.toInt ∧ c.biasShift.toInt ≤ 31) ∧
      (c.precision = .asym8 → -31 ≤ c.outShift.toInt ∧ c.outShift.toInt ≤ 31) := by
  rw [firstFailure_eq_none]
  cases hp : c.precision <;> simp [shiftChecks, hp, and_assoc]

theorem zeroPointChecks_eq_none :
    firstFailure (zeroPointChecks c) = none ↔
      (c.precision = .asym8 ∨ c.precision = .pc8 → (-127 ≤ c.inZb.toInt ∧ c.inZb.toInt ≤ 128) ∧
        -128 ≤ c.outZp.toInt ∧ c.outZp.toInt ≤ 127) ∧
      (c.precision = .asym8 → -127 ≤ c.kerZb.toInt ∧ c.kerZb.toInt ≤ 128) := by
  rw [firstFailure_eq_none]
  cases hp : c.precision <;> simp [zeroPointChecks, hp]
  tauto

/-- Both ends of the clamp range lie in the range of `T_out` if the outer two tests hold of them in order. -/
theorem clampChecks_eq_none :
    firstFailure (clampChecks c) = none ↔
      (c.precision.clampsToRegisters = true → c.precision.tOut.lo ≤ c.outMin.toInt ∧
        c.outMin.toInt ≤ c.outMax.toInt ∧ c.outMax.toInt ≤ c.precision.tOut.hi) := by
  rw [firstFailure_eq_none]
  cases hp : c.precision.clampsToRegisters
  · simp [clampChecks, hp]
  · simp [clampChecks, hp]
    omega

/-- Steps A1 to A8 pass exactly on the configurations they ask for. -/
theorem checkArgs_eq_none : checkArgs c = none ↔ ArgsLegal c := by
  rw [checkArgs, firstFailure_append_eq_none, firstFailure_append_eq_none, firstFailure_append_eq_none,
    firstFailure_append_eq_none, nullChecks_eq_none, alignmentChecks_eq_none, shiftChecks_eq_none,
    zeroPointChecks_eq_none, clampChecks_eq_none]
  constructor
  · rintro ⟨⟨⟨⟨⟨n, nArr⟩, a, aArr⟩, hsh, hsh'⟩, hzp, hzp'⟩, hclamp⟩
    refine ⟨n, nArr, a, aArr, hsh, fun h => ⟨(hsh' h).1, (hsh' h).2, hzp' h⟩, fun h => ?_, fun h => ?_⟩
    · have hc : c.precision.clampsToRegisters = true := by rcases h with h | h <;> rw [h] <;> rfl
      have hne : c.precision ≠ .s8s16 := by rcases h with h | h <;> simp [h]
      rw [(clampRange_eq hc).1, (clampRange_eq hc).2, if_neg hne, if_neg hne] at hclamp
      exact ⟨(hzp h).1.1, (hzp h).1.2, (hzp h).2.1, (hzp h).2.2, hclamp hc⟩
    · rw [h] at hclamp
      exact hclamp rfl
  · rintro ⟨n, nArr, a, aArr, hsh, hasym, h8, h16⟩
    refine ⟨⟨⟨⟨⟨n, nArr⟩, a, aArr⟩, hsh, fun h => ⟨(hasym h).1, (hasym h).2.1⟩⟩, fun h => ?_,
      fun h => (hasym h).2.2⟩, fun hc => ?_⟩
    · obtain ⟨i1, i2, o1, o2, -⟩ := h8 h
      exact ⟨⟨i1, i2⟩, o1, o2⟩
    · rw [(clampRange_eq hc).1, (clampRange_eq hc).2]
      by_cases h : c.precision = .s8s16
      · rw [if_pos h, if_pos h]
        exact h16 h
      · rw [if_neg h, if_neg h]
        have hq := ((clampsToRegisters_iff _).1 hc).imp_right fun hq => hq.resolve_right h
        obtain ⟨-, -, -, -, hm⟩ := h8 hq
        exact hm

end

/-- Settles O25: the groups of checks one after the other, and the shift array element by element. -/
theorem argumentChecks : Obligations.ArgumentChecks := by
  refine ⟨fun c arrays clamps lo hi ha hc hlo hhi => ?_, fun s e hshape hcap hargs => ?_,
    fun c m => ⟨?_, fun hp => ?_⟩⟩
  · have hper : c.precision.perChannel = arrays := by
      rw [Bool.eq_iff_iff, perChannel_iff, ha]
    have hclamp : c.precision.clampsToRegisters = clamps := by
      rw [Bool.eq_iff_iff, clampsToRegisters_iff, hc]
    subst hlo hhi
    rw [checkArgs, List.append_assoc, List.append_assoc, List.append_assoc,
      firstFailure_nullChecks _ hper, firstFailure_alignmentChecks _ hper, firstFailure_shiftChecks,
      firstFailure_zeroPointChecks,
      firstFailure_clampChecks hclamp fun h => clampRange_eq (hclamp.trans h)]
  · have h : firstFailure [checkShape s.cfg, checkCapacity s.params s.cfg, checkArgs s.cfg] = some e := by
      simp [firstFailure, hshape, hcap, hargs]
    exact ⟨exec_callBegin_of_check h, exec_conv_of_check h⟩
  · rw [checkArgs_eq_none]
    exact ⟨fun ⟨h1, h2, h3, h4, h5, h6, h7, h8⟩ => ⟨h1, h2, h3, h4, h5, h6, h7, h8⟩,
      fun ⟨h1, h2, h3, h4, h5, h6, h7, h8⟩ => ⟨h1, h2, h3, h4, h5, h6, h7, h8⟩⟩
  · have hper := (perChannel_iff _).2 hp
    exact ⟨checkShiftArray_eq_none hper m, fun oc hoc hfail hbefore =>
      checkShiftArray_eq_some hper hoc hfail hbefore⟩

end Sys2Proof.Machine

/-! SUPPORT. The proofs of the family 10_state about the register file: reads and writes by number (O5, O9 to
O13). -/

namespace Sys2Proof.Machine

/-! ### Commands and registers written by the host -/

theorem transact_command {w : Word} {i : Instr} (h : decode w = .ok i) (s : State) :
    transact (.regWrite 0x01 w) s = exec i s := by
  simp [transact, regWrite, runCommandWord, h]

/-- Settles O5: the transaction is a write to CMD, and the word decodes. -/
theorem stepRunsDecodedCommand : Obligations.StepRunsDecodedCommand := by
  intro s w rest i hq hdecode
  rw [step_of_queue hq, transact_command hdecode]

theorem regWrite_of_ne {no : Nat} (w : Word) (s : State) (h : no ≠ 0x01) :
    regWrite no w s = .next (s.writeReg no w) := if_neg h

/-- Settles O11: the writes are `writeIc`, `writeM`, `writeRes` and `writeJ0`. -/
theorem ctxWriteInvalidates : Obligations.CtxWriteInvalidates := by
  intro s w
  exact ⟨regWrite_of_ne w s (by decide), regWrite_of_ne w s (by decide), regWrite_of_ne w s (by decide),
    regWrite_of_ne w s (by decide)⟩

/-! ### The CFG registers by number (10_state.md R33, R56) -/

/-- The CFG registers in the order of their numbers from 0x08; the reserved number 0x0F reads 0. -/
def Cfg.words (c : Cfg) : List Word :=
  [c.inPtr, c.kerPtr, c.biasPtr, c.outPtr, c.scratchPtr, c.multPtr, c.shiftPtr, 0, c.inH, c.inW, c.inC,
   c.outH, c.outW, c.kH, c.kW, c.chMult, c.strideX, c.strideY, c.dilX, c.dilY, c.padX, c.padY, c.layout,
   c.prec, c.inZb, c.kerZb, c.outZp, c.outMult, c.outShift, c.accShift, c.biasShift, c.outMin, c.outMax]

theorem isCfgNumber_iff (no : Nat) :
    isCfgNumber no = true ↔ (0x08 ≤ no ∧ no ≤ 0x0E) ∨ (0x10 ≤ no ∧ no ≤ 0x28) := by
  simp [isCfgNumber]

theorem readReg_of_cfg (s : State) {no : Nat} (h : isCfgNumber no = true) :
    some (s.readReg no) = s.cfg.words[no - 8]? := by
  rcases (isCfgNumber_iff no).1 h with ⟨h0, h1⟩ | ⟨h0, h1⟩ <;> interval_cases no <;> rfl

/-- A write of a CFG number replaces that register in the list and no other. -/
theorem cfg_set_words (c : Cfg) (w : Word) {no : Nat} (h : isCfgNumber no = true) :
    ∃ c', c.set no w = some c' ∧ c'.words = c.words.set (no - 8) w := by
  rcases (isCfgNumber_iff no).1 h with ⟨h0, h1⟩ | ⟨h0, h1⟩ <;> interval_cases no <;> exact ⟨_, rfl, rfl⟩

theorem cfg_set_eq_none (c : Cfg) (w : Word) {no : Nat} (h : isCfgNumber no = false) :
    c.set no w = none := by
  unfold Cfg.set
  split
  on_goal -1 => rfl
  all_goals cases h

theorem writeReg_of_cfg {s : State} {no : Nat} {w : Word} {c : Cfg} (h : isCfgNumber no = true)
    (hset : s.cfg.set no w = some c) : s.writeReg no w = s.writeCfg c := by
  unfold State.writeReg
  split
  on_goal -1 => rw [hset]
  all_goals cases h

/-- Settles O10: the write replaces one register of the list, and `close` clears the state fields. -/
theorem cfgWriteClosesCall : Obligations.CfgWriteClosesCall := by
  intro s no w h
  obtain ⟨c, hset, hwords⟩ := cfg_set_words s.cfg w h
  have hne : no ≠ 0x01 := by rintro rfl; cases h
  have hlen : no - 8 < s.cfg.words.length := by
    rcases (isCfgNumber_iff no).1 h with ⟨_, h1⟩ | ⟨_, h1⟩ <;> simp only [Cfg.words, List.length] <;> omega
  refine ⟨c, ?_, ?_, fun no' h' hno => ?_⟩
  · rw [regWrite_of_ne w s hne, writeReg_of_cfg h hset]
    rfl
  · rw [← Option.some_inj, readReg_of_cfg _ h, hwords, List.getElem?_set_self hlen]
  · have hidx : no - 8 ≠ no' - 8 := by
      rcases (isCfgNumber_iff no).1 h with ⟨_, _⟩ | ⟨_, _⟩ <;>
        rcases (isCfgNumber_iff no').1 h' with ⟨_, _⟩ | ⟨_, _⟩ <;> omega
    rw [← Option.some_inj, readReg_of_cfg _ h', readReg_of_cfg _ h', hwords, List.getElem?_set_ne hidx]

/-! ### RO registers and reserved numbers (10_state.md R32, R58) -/

theorem isReservedNumber_iff (no : Nat) :
    isReservedNumber no = true ↔ no = 0x0F ∨ (0x29 ≤ no ∧ no ≤ 0x2F) ∨ (0x34 ≤ no ∧ no ≤ 0x37) ∨
      no = 0x3E ∨ no = 0x3F ∨ (0x4D ≤ no ∧ no ≤ 0x4F) ∨ 0x55 ≤ no := by
  simp [isReservedNumber, or_assoc]

theorem isReadOnlyNumber_iff (no : Nat) :
    isReadOnlyNumber no = true ↔ no = 0x00 ∨ (0x03 ≤ no ∧ no ≤ 0x07) ∨ (0x38 ≤ no ∧ no ≤ 0x3D) ∨
      (0x40 ≤ no ∧ no ≤ 0x4C) ∨ (0x50 ≤ no ∧ no ≤ 0x54) := by
  simp [isReadOnlyNumber, or_assoc]

theorem readReg_of_reserved (s : State) {no : Nat} (h : isReservedNumber no = true ∨ no = 0x01) :
    s.readReg no = 0 := by
  rw [isReservedNumber_iff] at h
  unfold State.readReg
  split
  on_goal -1 => rfl
  all_goals omega

/-- Neither STATUS, nor a CTX register, nor a CFG register: nothing is written. -/
theorem writeReg_of_readOnly (s : State) (w : Word) {no : Nat}
    (h : isReadOnlyNumber no = true ∨ isReservedNumber no = true) : s.writeReg no w = s := by
  rw [isReadOnlyNumber_iff, isReservedNumber_iff] at h
  have hcfg : isCfgNumber no = false := by
    rw [← Bool.not_eq_true, isCfgNumber_iff]
    omega
  unfold State.writeReg
  split
  · omega
  · omega
  · omega
  · omega
  · omega
  · rw [cfg_set_eq_none _ _ hcfg]

/-- The three fields of PARAM (10_state.md R39). -/
theorem paramWord_fields {p : Config.Params} (hp : p.ok = true) :
    ((paramWord p).extractLsb' 0 8).toNat = p.rIter ∧ ((paramWord p).extractLsb' 8 8).toNat = p.kwAlign ∧
      ((paramWord p).extractLsb' 16 16).toNat = p.hdrBytes := by
  obtain ⟨-, hr, -, hk, -, hh⟩ := (params_ok_iff p).1 hp
  simp only [paramWord, BitVec.extractLsb'_toNat, BitVec.toNat_ofNat, Nat.shiftRight_eq_div_pow]
  omega

/-- Settles O9: reserved numbers and RO registers stand outside every case of a write. -/
theorem readOnlyAndReservedRegisters : Obligations.ReadOnlyAndReservedRegisters := by
  intro s no
  refine ⟨fun h w => ?_, rfl, readReg_of_reserved s, rfl, paramWord_fields⟩
  have hne : no ≠ 0x01 := by
    rw [isReadOnlyNumber_iff, isReservedNumber_iff] at h
    omega
  rw [regWrite_of_ne w s hne, writeReg_of_readOnly s w h]

/-! ### The fields of STATUS (10_state.md R36, R59) -/

/-- The word of STATUS, field over field: CB_STATE below, then one bit for each flag. -/
theorem status_toWord_eq (st : Status) :
    st.toWord = BitVec.ofNat 32 (st.cbState.code + 4 * (st.callOpen.toNat + 2 * (st.decValid.toNat +
      2 * (st.kpadValid.toNat + 2 * (st.ksValid.toNat + 2 * (st.accValid.toNat + 2 * (false.toNat +
      2 * (st.err.toNat + 2 * (st.underrun.toNat + 2 * st.accOvf.toNat))))))))) := by
  have hflag : ∀ b pos, flagBit b pos = b.toNat * 2 ^ pos := by
    intro b pos
    cases b <;> simp [flagBit]
  rw [Status.toWord]
  simp only [hflag, Bool.toNat_false]
  congr 1
  ring

theorem testBit_flag_zero (b : Bool) (n : Nat) : (b.toNat + 2 * n).testBit 0 = b := by
  cases b <;> simp [Nat.testBit_zero]

theorem testBit_flag_succ (b : Bool) (n k : Nat) : (b.toNat + 2 * n).testBit (k + 1) = n.testBit k := by
  rw [Nat.testBit_add_one]
  have := Bool.toNat_le b
  congr 1
  omega

theorem cbState_code_lt (c : CbState) : c.code < 4 := by cases c <;> decide

theorem testBit_above_cbState (c : CbState) (n k : Nat) : (c.code + 4 * n).testBit (k + 2) = n.testBit k := by
  have := cbState_code_lt c
  rw [Nat.testBit_add_one, Nat.testBit_add_one, Nat.div_div_eq_div_mul]
  congr 1
  omega

theorem status_getLsbD (st : Status) {k : Nat} (hk : k < 32) :
    st.toWord.getLsbD k = (st.cbState.code + 4 * (st.callOpen.toNat + 2 * (st.decValid.toNat +
      2 * (st.kpadValid.toNat + 2 * (st.ksValid.toNat + 2 * (st.accValid.toNat + 2 * (false.toNat +
      2 * (st.err.toNat + 2 * (st.underrun.toNat + 2 * st.accOvf.toNat))))))))).testBit k := by
  rw [status_toWord_eq, BitVec.getLsbD_ofNat, decide_eq_true hk, Bool.true_and]

theorem status_cbState_field (st : Status) : (st.toWord.extractLsb' 0 2).toNat = st.cbState.code := by
  rw [status_toWord_eq, BitVec.extractLsb'_toNat, BitVec.toNat_ofNat]
  have := cbState_code_lt st.cbState
  omega

theorem status_upper_bits (st : Status) {k : Nat} (hk : 11 ≤ k) : st.toWord.getLsbD k = false := by
  by_cases h32 : k < 32
  · obtain ⟨j, rfl⟩ : ∃ j, k = j + 11 := ⟨k - 11, by omega⟩
    rw [status_getLsbD st h32]
    simp only [testBit_above_cbState _ _ (j + 9), testBit_flag_succ, Nat.testBit_bool_toNat]
    simp
  · exact BitVec.getLsbD_of_ge _ _ (by omega)

/-- Settles O12: each flag is one binary digit of the word above the code of CB_STATE. -/
theorem statusFields : Obligations.StatusFields := by
  intro s
  have hbit : ∀ {k}, k < 32 → (s.readReg 0x02).getLsbD k = _ := status_getLsbD s.status
  refine ⟨?_, ?_, ?_, ?_, ?_, ?_, ?_, ?_, ?_, ?_, fun k => status_upper_bits s.status,
    fun w => regWrite_of_ne w s (by decide)⟩
  · refine (status_cbState_field s.status).trans ?_
    cases s.status.cbState <;> rfl
  all_goals
    rw [hbit (by decide), testBit_above_cbState _ _ _]
    simp only [testBit_flag_succ, testBit_flag_zero, Nat.testBit_bool_toNat, decide_true, Bool.true_and]

/-! ### Reset (10_state.md R79, R80) -/

/-- Every register but ID and PARAM of a reset engine is 0. -/
theorem readReg_resetWith (p : Config.Params) {no : Nat} (h0 : no ≠ 0x00) (h7 : no ≠ 0x07) :
    (State.resetWith p).readReg no = 0 := by
  unfold State.readReg
  split
  case h_1 => exact absurd rfl h0
  case h_7 => exact absurd rfl h7
  all_goals rfl

theorem checkShape_reset : checkShape State.reset.cfg = some { cause := .size, info := 0x10 } := by decide

/-- Settles O13: every register of `resetWith` but ID and PARAM is 0, and IN_H is the first register of
which `CheckShape()` complains. -/
theorem resetValues : Obligations.ResetValues := by
  refine ⟨fun no h0 h7 => readReg_resetWith _ h0 h7, rfl, by decide, fun i hi => ?_, fun s => ?_⟩
  · rcases hi with rfl | rfl | rfl
    · exact exec_getsize_of_check (by rw [checkShape_reset, firstFailure])
    · exact exec_callBegin_of_check (by rw [checkShape_reset, firstFailure])
    · exact exec_conv_of_check (by rw [checkShape_reset, firstFailure])
  · exact ⟨s.hardReset, rfl, rfl, rfl, rfl, fun no h0 h7 => readReg_resetWith s.params h0 h7⟩

end Sys2Proof.Machine

/-! SUPPORT. The proofs of the family 10_state about an open call's scratch region: its size (O22), its
release (O29), the capacity of the ring (O37) and the window registers (O38). -/

namespace Sys2Proof.Machine

/-! ### The size of the scratch region (10_state.md R72, 40_planner.md R171) -/

theorem scratchTotal_emod_eight {p : Config.Params} {c : Cfg} (hp : p.ok = true) (hc : ShapeLegal c) :
    c.scratchTotal p % 8 = 0 := by
  obtain ⟨-, -, -, -, hhdr, -⟩ := (params_ok_iff p).1 hp
  have hring : (8 : Int) ∣ c.ringBytes p :=
    Dvd.dvd.mul_left (Int.dvd_of_emod_eq_zero (planFacts hp hc).entryAligned) _
  have hstage : (8 : Int) ∣ c.stagingBytes p := Int.dvd_of_emod_eq_zero (alignUp_emod _ 8)
  have hacc : (8 : Int) ∣ c.accBytes p := Dvd.intro_left _ rfl
  unfold Cfg.scratchTotal Cfg.offAcc Cfg.offKs Cfg.offCb
  omega

theorem finish_of_isCount {v : Int} (h : IsCount v) (s : State) :
    s.finish v = { s with resultLo := BitVec.ofInt 32 v, resultHi := 0, cause := 0, causeInfo := 0 } := by
  have hhi : v / 2 ^ 32 = 0 := by
    obtain ⟨h0, h1⟩ := h
    simp only [Config.countMax] at h1
    omega
  rw [State.finish, hhi]
  rfl

/-- Settles O22: both checks pass, and the total is a sum of multiples of 8 that `PlanFits` bounds. -/
theorem getsizeReturnsTotal : Obligations.GetsizeReturnsTotal := by
  intro s hp hshape hcap
  have hcheck : checkCapacity s.params s.cfg = none := (checkCapacity_eq_none _ _).2 hcap
  have htotal := (planFits hp hshape hcheck).total
  have hpos : 0 < s.cfg.scratchTotal s.params := by
    obtain ⟨h1, h2, h3⟩ := (planFacts hp hshape).order
    have : 0 ≤ Cfg.offCb s.params := Int.natCast_nonneg _
    omega
  refine ⟨?_, hpos, scratchTotal_emod_eight hp hshape, htotal.2⟩
  rw [exec, execGetsize, (checkShape_eq_none _).2 hshape, hcheck, ← finish_of_isCount htotal s]
  rfl

/-! ### END (46_conv_sequencer.md R354) -/

/-- Settles O29: END is ready in an open call, and a release touches its range only. -/
theorem endClosesCall : Obligations.EndClosesCall := by
  intro s ho
  refine ⟨(releaseScratch s.close).mem, ?_, fun a ha => read_forgetRange_outside ha⟩
  rw [exec, execEnd, (needOpen_eq_none _).2 ho, runCommand_none]
  rfl

/-! ### The capacity of the ring (10_state.md R68, 41_circular_buffer.md R199) -/

/-- A tile's first and last entry lie no farther apart than the ring is long. -/
theorem tileSpan_le_ringCapacity {p : Config.Params} {c : Cfg} {n : Int} (hc : ShapeLegal c) (hn : 1 ≤ n)
    (hnr : n ≤ p.rIter) : c.axes.kA + (n - 1) * c.axes.reducedStride ≤ c.ringCapacity p := by
  have hx := hc.axes
  have hstep : (n - 1) * c.axes.reducedStride ≤ ((p.rIter : Int) - 1) * c.axes.sA :=
    mul_le_mul (by omega) hx.reducedStride_le (by linarith [hx.lattice.stride_pos]) (by omega)
  have := hx.le_dkeA
  unfold Cfg.ringCapacity
  omega

/-- Settles O37: the span of a tile is at most the capacity. -/
theorem ringNeverOverwritesTile : Obligations.RingNeverOverwritesTile := by
  intro p c n j0 hp hc hn hnr
  have hspan := tileSpan_le_ringCapacity hc hn hnr
  exact ⟨hspan, (planFacts hp hc).cap.1, fun nn hnn => by omega⟩

/-! ### Addresses in the scratch region of an open call (10_state.md R73 to R76) -/

/-- What an open call promises under the invariant. -/
structure CallOpen (s : State) : Prop where
  /-- The implementation parameters meet their constraints. -/
  params : s.params.ok = true
  /-- The configuration is legal. -/
  config : ConfigLegal s.params s.cfg
  /-- The layout registers hold the plan. -/
  layout : LayoutStored s

theorem Inv.callOpen {s : State} (h : Inv s) (ho : s.status.callOpen = true) : CallOpen s :=
  ⟨h.params, h.config ho, h.layout ho⟩

theorem Inv.callOpen_of_ring {s : State} (h : Inv s) (hr : s.status.cbState ≠ .uninitialized) : CallOpen s :=
  h.callOpen (h.flags.dec (h.flags.ring hr))

section
variable {s : State} (h : CallOpen s)
include h

theorem CallOpen.plan : PlanFacts s.params s.cfg := planFacts h.params h.config.shapeLegal

theorem CallOpen.fits : PlanFits s.params s.cfg :=
  planFits h.params h.config.shapeLegal h.config.capacity

theorem CallOpen.offsets_order : 0 ≤ Cfg.offCb s.params ∧ Cfg.offCb s.params < s.cfg.offKs s.params ∧
    s.cfg.offKs s.params < s.cfg.offAcc s.params ∧ s.cfg.offAcc s.params < s.cfg.scratchTotal s.params :=
  ⟨Int.natCast_nonneg _, h.plan.order⟩

/-- An offset inside the scratch region does not wrap (20_memory.md R103). -/
theorem CallOpen.ptrPlus_scratch {off : Int} (h0 : 0 ≤ off) (h1 : off < s.cfg.scratchTotal s.params) :
    (ptrPlus s.cfg.scratchPtr off : Int) = s.cfg.scratchPtr.toNat + off := by
  have := h.config.scratch_inside.2
  exact ptrPlus_eq (by omega) (by omega)

theorem CallOpen.entryBytes_toNat : (s.book.cbEntryBytes.toNat : Int) = s.cfg.entryBytes := by
  rw [← h.layout.entryBytes]
  exact isCount_toNat (by rw [h.layout.entryBytes]; exact h.fits.entryBytes.1)

/-- A byte of a slot lies in the ring region. -/
theorem CallOpen.slot_offset {k b : Int} (hk : 0 ≤ k ∧ k < s.cfg.ringCapacity s.params)
    (hb : 0 ≤ b) {e : Int} (he : b + e ≤ s.cfg.entryBytes) :
    Cfg.offCb s.params ≤ Cfg.offCb s.params + k * s.cfg.entryBytes + b ∧
      Cfg.offCb s.params + k * s.cfg.entryBytes + b + e ≤ s.cfg.offKs s.params := by
  have hentry := h.plan.entry
  have h0 : 0 ≤ k * s.cfg.entryBytes := Int.mul_nonneg hk.1 hentry.le
  have h1 : (k + 1) * s.cfg.entryBytes ≤ s.cfg.ringCapacity s.params * s.cfg.entryBytes :=
    Int.mul_le_mul_of_nonneg_right (by omega) hentry.le
  rw [add_mul, one_mul] at h1
  unfold Cfg.offKs Cfg.ringBytes
  omega

theorem CallOpen.slotByte_eq {k b : Int} (hk : 0 ≤ k ∧ k < s.cfg.ringCapacity s.params)
    (hb : 0 ≤ b ∧ b < s.cfg.entryBytes) :
    (s.slotByte k b : Int) = s.cfg.scratchPtr.toNat + (Cfg.offCb s.params + k * s.cfg.entryBytes + b) := by
  obtain ⟨h0, h1⟩ := h.slot_offset hk hb.1 (e := 1) (by omega)
  obtain ⟨o0, o1, o2, o3⟩ := h.offsets_order
  rw [State.slotByte, h.layout.offCb, h.layout.entryBytes]
  exact h.ptrPlus_scratch (by omega) (by omega)

/-- Sample u of a line lies in its slot (10_state.md R67). -/
theorem CallOpen.sample_offset {u : Int} (hu : 0 ≤ u ∧ u < s.cfg.axes.line) :
    0 ≤ u * s.cfg.precision.esIn ∧
      u * s.cfg.precision.esIn + s.cfg.precision.esIn ≤ s.cfg.entryBytes := by
  have hes := s.cfg.precision.esIn_pos
  have h1 : (u + 1) * s.cfg.precision.esIn ≤ s.cfg.axes.line * s.cfg.precision.esIn :=
    Int.mul_le_mul_of_nonneg_right (by omega) hes.le
  rw [add_mul, one_mul] at h1
  exact ⟨Int.mul_nonneg hu.1 hes.le, h1.trans h.plan.line⟩

/-! ### The window registers (10_state.md R53) -/

theorem CallOpen.winBegin_toNat :
    (s.winBegin.toNat : Int) = s.cfg.scratchPtr.toNat + Cfg.offCb s.params := by
  have hcb := h.layout.offCb
  have hfit := h.fits.offCb
  have hin := h.config.scratch_inside.2
  obtain ⟨o0, o1, o2, o3⟩ := h.offsets_order
  have hnat := isCount_toNat (w := s.book.layCb) (by rw [hcb]; exact hfit.1)
  rw [hcb] at hnat
  rw [State.winBegin, BitVec.toNat_add, Nat.mod_eq_of_lt (by omega)]
  omega

theorem CallOpen.winEnd_toNat :
    (s.winEnd.toNat : Int) = s.cfg.scratchPtr.toNat + s.cfg.offKs s.params := by
  have hin := h.config.scratch_inside.2
  obtain ⟨o0, o1, o2, o3⟩ := h.offsets_order
  have hbegin := h.winBegin_toNat
  have hcap := isCount_toNat (w := s.book.cbCap) (by rw [h.layout.cap]; exact h.fits.cap.1)
  rw [h.layout.cap] at hcap
  have hring : ((s.book.cbCap.toNat * s.book.cbEntryBytes.toNat : Nat) : Int) = s.cfg.ringBytes s.params := by
    rw [Nat.cast_mul, hcap, h.entryBytes_toNat]
    rfl
  have hoff : s.cfg.offKs s.params = Cfg.offCb s.params + s.cfg.ringBytes s.params := rfl
  rw [show s.winEnd = s.winBegin + s.book.cbCap * s.book.cbEntryBytes from rfl, BitVec.toNat_add,
    BitVec.toNat_mul, Nat.mod_eq_of_lt (a := s.book.cbCap.toNat * _) (by omega), Nat.mod_eq_of_lt (by omega)]
  omega

end

/-- `WIN_OLDEST` is the slot of the oldest entry (10_state.md R53). -/
theorem CallOpen.winOldest_toNat {s : State} (h : CallOpen s) (hring : RingConsistent s) :
    (s.winOldest.toNat : Int) = s.oldestEntry % s.cfg.ringCapacity s.params := by
  have hcap := h.plan.cap.2
  have hslot : IsCount (s.oldestEntry % s.cfg.ringCapacity s.params) := by
    have := Int.emod_lt_of_pos s.oldestEntry hcap
    exact h.fits.cap.mono (Int.emod_nonneg _ hcap.ne') this.le
  have hold : s.winOldest = BitVec.ofInt 32 (s.oldestEntry % s.cfg.ringCapacity s.params) := by
    rw [State.winOldest, if_pos (by rw [h.layout.cap]; exact hcap), hring.cursor, Int.emod_sub_emod,
      h.layout.cap]
    rfl
  rw [hold, isCount_toNat] <;> rw [toInt_ofInt_of_isCount hslot]
  exact hslot.1

/-- One wrap reduces a sum of two slot numbers below the capacity. -/
theorem add_emod_wrap {a i cap : Int} (hcap : 0 < cap) (hi : 0 ≤ i ∧ i < cap) :
    (a + i) % cap = if cap ≤ a % cap + i then a % cap + i - cap else a % cap + i := by
  have h0 := Int.emod_nonneg a hcap.ne'
  have h1 := Int.emod_lt_of_pos a hcap
  rw [← Int.emod_add_emod]
  split
  · rw [← Int.sub_emod_right, Int.emod_eq_of_lt (by omega) (by omega)]
  · exact Int.emod_eq_of_lt (by omega) (by omega)

/-- Settles O38: the address passes the end of the ring exactly if the slot number passes the capacity. -/
theorem windowWrapAddressing : Obligations.WindowWrapAddressing := by
  intro s i u hinv hr hi0 hi1 hu0 hu1 p hp
  have h := hinv.callOpen_of_ring hr
  have hring := hinv.ring hr
  have hcap := h.plan.cap.2
  have hentry := h.plan.entry
  have hicap : i < s.cfg.ringCapacity s.params := by
    have := hring.valid.2.1
    rw [h.layout.cap] at this
    omega
  obtain ⟨hs0, hs1⟩ := h.sample_offset ⟨hu0, hu1⟩
  have hes := s.cfg.precision.esIn_pos
  have hslot : 0 ≤ (s.oldestEntry + i) % s.cfg.ringCapacity s.params ∧
      (s.oldestEntry + i) % s.cfg.ringCapacity s.params < s.cfg.ringCapacity s.params :=
    ⟨Int.emod_nonneg _ hcap.ne', Int.emod_lt_of_pos _ hcap⟩
  have hoff : s.cfg.offKs s.params =
      Cfg.offCb s.params + s.cfg.ringCapacity s.params * s.cfg.entryBytes := rfl
  rw [show s.readReg 0x47 = s.winBegin from rfl, show s.readReg 0x46 = s.winOldest from rfl,
    show s.readReg 0x44 = s.book.cbEntryBytes from rfl, h.winBegin_toNat, h.winOldest_toNat hring,
    h.entryBytes_toNat] at hp
  rw [show s.readReg 0x48 = s.winEnd from rfl, show s.readReg 0x47 = s.winBegin from rfl, h.winEnd_toNat,
    h.winBegin_toNat, hoff, h.layout.cap, h.slotByte_eq hslot ⟨hs0, by omega⟩,
    add_emod_wrap hcap ⟨hi0, hicap⟩, hp]
  generalize s.oldestEntry % s.cfg.ringCapacity s.params = o
  by_cases hwrap : s.cfg.ringCapacity s.params ≤ o + i
  · have : s.cfg.ringCapacity s.params * s.cfg.entryBytes ≤ (o + i) * s.cfg.entryBytes :=
      Int.mul_le_mul_of_nonneg_right hwrap hentry.le
    rw [if_pos hwrap, if_pos (by omega), sub_mul]
    omega
  · have : (o + i + 1) * s.cfg.entryBytes ≤ s.cfg.ringCapacity s.params * s.cfg.entryBytes :=
      Int.mul_le_mul_of_nonneg_right (by omega) hentry.le
    rw [add_mul, one_mul] at this
    rw [if_neg hwrap, if_neg (by omega)]
    omega

end Sys2Proof.Machine

/-! SUPPORT. Where the stores of each command lie, and what the ring and the staging region hold after
CB_INIT (O33) and KS_CLEAR (O39). -/

namespace Sys2Proof.Machine

@[simp] theorem elemStore_addr (a : Nat) (t : ElemType) (v : Int) : (elemStore a t v).addr = a := rfl
@[simp] theorem elemStore_len (a : Nat) (t : ElemType) (v : Int) : (elemStore a t v).len = t.size := rfl
@[simp] theorem elemStore_val (a : Nat) (t : ElemType) (v : Int) : (elemStore a t v).val = v := rfl

/-! ### Stores inside a range of addresses -/

/-- Every byte the stores write lies at or above `lo` and below `hi`. -/
def StoresIn (l : List Store) (lo hi : Int) : Prop :=
  ∀ st ∈ l, lo ≤ st.addr ∧ (st.addr : Int) + st.len ≤ hi

section
variable {l l' : List Store} {lo hi : Int} {m m' : Memory} {a : Nat} {t : ElemType}

/-- Inside the address space no store wraps, so its bytes stand where its numbers say. -/
theorem StoresIn.covered_byte (h : StoresIn l lo hi) (hhi : hi ≤ 2 ^ 32) (hc : storesCover l a = true) :
    ∃ st ∈ l, st.addr ≤ a ∧ a < st.addr + st.len := by
  obtain ⟨st, hst, i, hi', rfl⟩ := (storesCover_iff l a).1 hc
  have := (h st hst).2
  refine ⟨st, hst, ?_⟩
  rw [wrapAddr_of_lt (show st.addr + i < 2 ^ 32 by omega)]
  omega

theorem StoresIn.read_outside (h : StoresIn l lo hi) (hhi : hi ≤ 2 ^ 32) (ha : (a : Int) < lo ∨ hi ≤ a) :
    (m.applyStores l).read a = m.read a := by
  refine read_applyStores_outside ?_
  rw [← Bool.not_eq_true]
  intro hc
  obtain ⟨st, hst, h0, h1⟩ := h.covered_byte hhi hc
  have := h st hst
  omega

/-- An element inside the address space loads alike from memories that agree on its bytes. -/
theorem load_eq_of_read_eq (hin : (a : Int) + t.size ≤ 2 ^ 32)
    (h : ∀ x, a ≤ x → x < a + t.size → m'.read x = m.read x) : m'.load a t = m.load a t := by
  refine load_congr fun i hi => ?_
  rw [wrapAddr_of_lt (show a + i < 2 ^ 32 by omega)]
  exact h _ (by omega) (by omega)

/-- An element that no store touches loads as before. -/
theorem StoresIn.load_apart (h : StoresIn l lo hi) (hhi : hi ≤ 2 ^ 32) (hin : (a : Int) + t.size ≤ 2 ^ 32)
    (hapart : ∀ st ∈ l, (st.addr : Int) + st.len ≤ a ∨ (a : Int) + t.size ≤ st.addr) :
    (m.applyStores l).load a t = m.load a t := by
  refine load_eq_of_read_eq hin fun x hx0 hx1 => read_applyStores_outside ?_
  rw [← Bool.not_eq_true]
  intro hc
  obtain ⟨st, hst, h0, h1⟩ := h.covered_byte hhi hc
  have := hapart st hst
  omega

/-- A stored element loads as stored if every other store stores the same there or lies apart. -/
theorem StoresIn.load_mem (h : StoresIn l lo hi) (hhi : hi ≤ 2 ^ 32) {v : Int} (hmem : elemStore a t v ∈ l)
    (hv : t.holds v)
    (hsep : ∀ x ∈ l, (x.addr = a ∧ x.val = v) ∨ (x.addr : Int) + x.len ≤ a ∨
      (a : Int) + t.size ≤ x.addr) :
    (m.applyStores l).load a t = v := by
  have hspace : (Config.addressSpace : Int) = 2 ^ 32 := rfl
  refine load_applyStores_mem hmem rfl le_rfl hv (fun x hx => ?_) fun x hx => ?_
  · have := (h x hx).2
    omega
  · refine (hsep x hx).imp_right fun hapart i hi j hj heq => ?_
    have h1 := (h x hx).2
    have h2 := (h _ hmem).2
    rw [elemStore_addr, elemStore_len] at h2
    rw [wrapAddr_of_lt (show a + i < 2 ^ 32 by omega),
      wrapAddr_of_lt (show x.addr + j < 2 ^ 32 by omega)] at heq
    omega

end

/-! ### Grids of elements -/

/-- The members of a doubly indexed list, by integer indices. -/
theorem mem_grid {α : Type} {f : Int → Int → α} {a b : Int} {x : α} :
    x ∈ ((List.range a.toNat).flatMap fun i : Nat => (List.range b.toNat).map fun j : Nat => f i j) ↔
      ∃ i j : Int, (0 ≤ i ∧ i < a) ∧ (0 ≤ j ∧ j < b) ∧ x = f i j := by
  simp only [List.mem_flatMap, List.mem_map, List.mem_range]
  constructor
  · rintro ⟨i, hi, j, hj, rfl⟩
    exact ⟨i, j, ⟨by omega, by omega⟩, ⟨by omega, by omega⟩, rfl⟩
  · rintro ⟨i, j, hi, hj, rfl⟩
    exact ⟨i.toNat, by omega, j.toNat, by omega, by rw [Int.toNat_of_nonneg hi.1, Int.toNat_of_nonneg hj.1]⟩

/-- Elements of one size on a grid of that size coincide or lie apart. -/
theorem grid_apart {q q' es : Int} (hes : 0 ≤ es) :
    q = q' ∨ q * es + es ≤ q' * es ∨ q' * es + es ≤ q * es := by
  rcases lt_trichotomy q q' with h | h | h
  · have := Int.mul_le_mul_of_nonneg_right (by omega : q + 1 ≤ q') hes
    rw [add_mul, one_mul] at this
    exact .inr (.inl this)
  · exact .inl h
  · have := Int.mul_le_mul_of_nonneg_right (by omega : q' + 1 ≤ q) hes
    rw [add_mul, one_mul] at this
    exact .inr (.inr this)

/-- A row and a column below the row length are determined by the index. -/
theorem grid_index_inj {i j i' j' w : Int} (hj : 0 ≤ j ∧ j < w) (hj' : 0 ≤ j' ∧ j' < w)
    (h : i * w + j = i' * w + j') : i = i' ∧ j = j' := by
  have hi : i = i' := by
    rcases grid_apart (q := i) (q' := i') (by omega : 0 ≤ w) with h1 | h1 | h1 <;> omega
  exact ⟨hi, by rw [hi] at h; omega⟩

/-- Row i of n rows of w elements ends inside. -/
theorem grid_index_lt {i j n w : Int} (hi : 0 ≤ i ∧ i < n) (hj : 0 ≤ j ∧ j < w) :
    0 ≤ i * w + j ∧ i * w + j < n * w := by
  have h0 := Int.mul_nonneg hi.1 (by omega : 0 ≤ w)
  have h1 := Int.mul_le_mul_of_nonneg_right (by omega : i + 1 ≤ n) (by omega : 0 ≤ w)
  rw [add_mul, one_mul] at h1
  omega

/-! ### The values the engine pads with -/

theorem holds_zero (t : ElemType) : t.holds 0 := by
  cases t <;> simp only [ElemType.holds] <;> norm_num

theorem ConfigLegal.argsLegal {p : Config.Params} {c : Cfg} (h : ConfigLegal p c) : ArgsLegal c :=
  (checkArgs_eq_none c).1 h.args

theorem ConfigLegal.padIn_holds {p : Config.Params} {c : Cfg} (h : ConfigLegal p c) :
    c.precision.tIn.holds c.padIn := by
  have hq := h.argsLegal.quantized8
  cases hp : c.precision <;> simp only [Cfg.padIn, Cfg.zeroIn, hp, neg_zero, holds_zero]
  · have := hq (.inl hp)
    simp only [Prec.tIn, ElemType.holds]
    omega
  · have := hq (.inr hp)
    simp only [Prec.tIn, ElemType.holds]
    omega

theorem ConfigLegal.padKer_holds {p : Config.Params} {c : Cfg} (h : ConfigLegal p c) :
    c.precision.tK.holds c.padKer := by
  have hq := h.argsLegal.asym
  cases hp : c.precision <;> simp only [Cfg.padKer, Cfg.zeroKer, hp, neg_zero, holds_zero]
  have := hq hp
  simp only [Prec.tK, ElemType.holds]
  omega

/-! ### The ring region (41_circular_buffer.md R192, R194) -/

theorem mem_cbInitStores {s : State} {st : Store} :
    st ∈ cbInitStores s ↔ ∃ k u : Int, (0 ≤ k ∧ k < s.book.cbCap.toInt) ∧
      (0 ≤ u ∧ u < s.book.cbEntryBytes.toInt / s.cfg.precision.esIn) ∧
      st = elemStore (s.slotByte k (u * s.cfg.precision.esIn)) s.cfg.precision.tIn s.cfg.padIn :=
  mem_grid (f := fun k u =>
    elemStore (s.slotByte k (u * s.cfg.precision.esIn)) s.cfg.precision.tIn s.cfg.padIn)

theorem mem_cbFeedStores {n : Nat} {s : State} {st : Store} :
    st ∈ cbFeedStores n s ↔ ∃ i u : Int, (0 ≤ i ∧ i < s.feedCount n) ∧
      (0 ≤ u ∧ u < s.book.cbLine.toInt) ∧
      st = elemStore (s.slotByte (s.feedSlot i) (u * s.cfg.precision.esIn)) s.cfg.precision.tIn
        (ringSample s.cfg s.mem s.ctx.ic.toInt (s.feedCoord i) u) :=
  mem_grid (f := fun i u =>
    elemStore (s.slotByte (s.feedSlot i) (u * s.cfg.precision.esIn)) s.cfg.precision.tIn
      (ringSample s.cfg s.mem s.ctx.ic.toInt (s.feedCoord i) u))

section
variable {s : State} (h : CallOpen s)
include h

/-- The elements of a slot fill it. -/
theorem CallOpen.slotElems_mul :
    s.cfg.entryBytes / s.cfg.precision.esIn * s.cfg.precision.esIn = s.cfg.entryBytes := by
  have := h.plan.entryAligned
  refine Int.ediv_mul_cancel (Int.dvd_of_emod_eq_zero ?_)
  rcases esIn_cases s.cfg.precision with he | he | he <;> rw [he] <;> omega

/-- Element u of slot k, on the grid of all the ring's elements. -/
theorem CallOpen.slotElem_addr {k u : Int} (hk : 0 ≤ k ∧ k < s.cfg.ringCapacity s.params)
    (hu : 0 ≤ u ∧ u < s.cfg.entryBytes / s.cfg.precision.esIn) :
    (s.slotByte k (u * s.cfg.precision.esIn) : Int) = s.cfg.scratchPtr.toNat + Cfg.offCb s.params +
        (k * (s.cfg.entryBytes / s.cfg.precision.esIn) + u) * s.cfg.precision.esIn ∧
      s.cfg.scratchPtr.toNat + Cfg.offCb s.params ≤ s.slotByte k (u * s.cfg.precision.esIn) ∧
      (s.slotByte k (u * s.cfg.precision.esIn) : Int) + s.cfg.precision.esIn ≤
        s.cfg.scratchPtr.toNat + s.cfg.offKs s.params := by
  have hes := s.cfg.precision.esIn_pos
  have hmul := h.slotElems_mul
  have hu0 : 0 ≤ u * s.cfg.precision.esIn := Int.mul_nonneg hu.1 hes.le
  have hu1 := Int.mul_le_mul_of_nonneg_right
    (by omega : u + 1 ≤ s.cfg.entryBytes / s.cfg.precision.esIn) hes.le
  rw [hmul, add_mul, one_mul] at hu1
  obtain ⟨h0, h1⟩ := h.slot_offset hk hu0 hu1
  have hslot : k * s.cfg.entryBytes =
      k * (s.cfg.entryBytes / s.cfg.precision.esIn) * s.cfg.precision.esIn := by rw [mul_assoc, hmul]
  rw [h.slotByte_eq hk ⟨hu0, by omega⟩, add_mul, ← hslot]
  omega

theorem CallOpen.cbInitStores_in :
    StoresIn (cbInitStores s) (s.cfg.scratchPtr.toNat + Cfg.offCb s.params)
      (s.cfg.scratchPtr.toNat + s.cfg.offKs s.params) := by
  intro st hst
  obtain ⟨k, u, hk, hu, rfl⟩ := mem_cbInitStores.1 hst
  rw [h.layout.cap] at hk
  rw [h.layout.entryBytes] at hu
  exact (h.slotElem_addr hk hu).2

theorem CallOpen.cbFeedStores_in (n : Nat) :
    StoresIn (cbFeedStores n s) (s.cfg.scratchPtr.toNat + Cfg.offCb s.params)
      (s.cfg.scratchPtr.toNat + s.cfg.offKs s.params) := by
  intro st hst
  obtain ⟨i, u, -, hu, rfl⟩ := mem_cbFeedStores.1 hst
  have hcap := h.plan.cap.2
  have hes := s.cfg.precision.esIn_pos
  rw [h.layout.line] at hu
  obtain ⟨-, hu1⟩ := h.sample_offset hu
  have hslot : 0 ≤ s.feedSlot i ∧ s.feedSlot i < s.cfg.ringCapacity s.params := by
    rw [State.feedSlot, h.layout.cap]
    exact ⟨Int.emod_nonneg _ hcap.ne', Int.emod_lt_of_pos _ hcap⟩
  have hu' : u < s.cfg.entryBytes / s.cfg.precision.esIn := by
    rw [← Int.add_one_le_iff, Int.le_ediv_iff_mul_le hes, add_mul, one_mul]
    exact hu1
  exact (h.slotElem_addr hslot ⟨hu.1, hu'⟩).2

theorem CallOpen.offsets_le : s.cfg.scratchPtr.toNat + s.cfg.offKs s.params ≤ 2 ^ 32 ∧
    s.cfg.scratchPtr.toNat + s.cfg.offAcc s.params ≤ 2 ^ 32 ∧
    s.cfg.scratchPtr.toNat + s.cfg.scratchTotal s.params ≤ 2 ^ 32 := by
  have := h.config.scratch_inside.2
  obtain ⟨o0, o1, o2, o3⟩ := h.offsets_order
  exact ⟨by omega, by omega, this⟩

/-- After CB_INIT every element of every slot holds `PV` (41_circular_buffer.md R192). -/
theorem CallOpen.load_cbInitStores (m : Memory) {k u : Int} (hk : 0 ≤ k ∧ k < s.cfg.ringCapacity s.params)
    (hu : 0 ≤ u ∧ u < s.cfg.entryBytes / s.cfg.precision.esIn) :
    (m.applyStores (cbInitStores s)).load (s.slotByte k (u * s.cfg.precision.esIn)) s.cfg.precision.tIn =
      s.cfg.padIn := by
  have hmem : elemStore (s.slotByte k (u * s.cfg.precision.esIn)) s.cfg.precision.tIn s.cfg.padIn ∈
      cbInitStores s := by
    refine mem_cbInitStores.2 ⟨k, u, ?_, ?_, rfl⟩
    · rwa [h.layout.cap]
    · rwa [h.layout.entryBytes]
  refine h.cbInitStores_in.load_mem h.offsets_le.1 hmem h.config.padIn_holds fun x hx => ?_
  obtain ⟨k', u', hk', hu', rfl⟩ := mem_cbInitStores.1 hx
  rw [h.layout.cap] at hk'
  rw [h.layout.entryBytes] at hu'
  obtain ⟨ha, -⟩ := h.slotElem_addr hk hu
  obtain ⟨ha', -⟩ := h.slotElem_addr hk' hu'
  have hsize : (s.cfg.precision.tIn.size : Int) = s.cfg.precision.esIn := rfl
  simp only [elemStore_addr, elemStore_len, elemStore_val, hsize, and_true]
  rcases grid_apart (q := k' * (s.cfg.entryBytes / s.cfg.precision.esIn) + u')
    (q' := k * (s.cfg.entryBytes / s.cfg.precision.esIn) + u) s.cfg.precision.esIn_pos.le with hq | hq | hq
  · rw [hq] at ha'
    exact .inl (by omega)
  · exact .inr (.inl (by omega))
  · exact .inr (.inr (by omega))

end

/-- Settles O33: CB_INIT is ready, and its stores fill the ring's grid with `PV`. -/
theorem cbInitPrimesRing : Obligations.CbInitPrimesRing := by
  intro s ho hd hic0 hic1 hres0 hres1
  refine ⟨(initRing s).mem, ?_, fun a ha => read_applyStores_outside ha,
    fun hinv k u hk0 hk1 hu0 hu1 => (hinv.callOpen ho).load_cbInitStores s.mem ⟨hk0, hk1⟩ ⟨hu0, hu1⟩⟩
  rw [exec, execCbInit, (cbInitPre_eq_none s).2 ⟨ho, hd, ⟨hic0, hic1⟩, hres0, hres1⟩, runCommand_none]
  rfl

/-! ### The staging region (42_kernel_stager.md R231, R232) -/

/-- The position stores of KS_CLEAR. -/
def ksLineStores (s : State) : List Store :=
  (List.range s.cfg.axes.kA.toNat).flatMap fun ta : Nat =>
    (List.range s.book.layKcpad.toInt.toNat).map fun p : Nat =>
      elemStore (s.stagedAddr ta p) s.cfg.precision.tK s.cfg.padKer

/-- The alignment-fill stores of KS_CLEAR. -/
def ksFillStores (s : State) : List Store :=
  (List.range (s.book.layAcc.toInt - s.book.layKs.toInt - s.stagedLineBytes).toNat).map fun b : Nat =>
    elemStore (ptrPlus s.cfg.scratchPtr (s.book.layKs.toInt + s.stagedLineBytes + b)) .s8 0

theorem ksClearStores_eq (s : State) : ksClearStores s = ksLineStores s ++ ksFillStores s := rfl

theorem mem_ksLineStores {s : State} {st : Store} :
    st ∈ ksLineStores s ↔ ∃ ta p : Int, (0 ≤ ta ∧ ta < s.cfg.axes.kA) ∧
      (0 ≤ p ∧ p < s.book.layKcpad.toInt) ∧
      st = elemStore (s.stagedAddr ta p) s.cfg.precision.tK s.cfg.padKer :=
  mem_grid (f := fun ta p => elemStore (s.stagedAddr ta p) s.cfg.precision.tK s.cfg.padKer)

theorem mem_ksFillStores {s : State} {st : Store} :
    st ∈ ksFillStores s ↔ ∃ b : Int,
      (0 ≤ b ∧ b < s.book.layAcc.toInt - s.book.layKs.toInt - s.stagedLineBytes) ∧
      st = elemStore (ptrPlus s.cfg.scratchPtr (s.book.layKs.toInt + s.stagedLineBytes + b)) .s8 0 := by
  simp only [ksFillStores, List.mem_map, List.mem_range]
  constructor
  · rintro ⟨b, hb, rfl⟩
    exact ⟨b, ⟨by omega, by omega⟩, rfl⟩
  · rintro ⟨b, hb, rfl⟩
    exact ⟨b.toNat, by omega, by rw [Int.toNat_of_nonneg hb.1]⟩

theorem mem_kstageStores {s : State} {st : Store} :
    st ∈ kstageStores s ↔ ∃ ta tc : Int, (0 ≤ ta ∧ ta < s.cfg.axes.kA) ∧
      (0 ≤ tc ∧ tc < s.cfg.axes.kC) ∧
      st = elemStore (s.stagedAddr ta (tc * s.cfg.axes.dC)) s.cfg.precision.tK
        (kernelElem s.cfg s.mem s.contextChannel ta tc) :=
  mem_grid (f := fun ta tc =>
    elemStore (s.stagedAddr ta (tc * s.cfg.axes.dC)) s.cfg.precision.tK
      (kernelElem s.cfg s.mem s.contextChannel ta tc))

section
variable {s : State} (h : CallOpen s)
include h

theorem CallOpen.stagedLineBytes_eq :
    s.stagedLineBytes = s.cfg.axes.kA * s.cfg.kernelLine s.params * s.cfg.precision.esK := by
  rw [State.stagedLineBytes, h.layout.kernelLine]

/-- Position (ta, p), on the grid of all the staged elements. -/
theorem CallOpen.stagedAddr_eq {ta p : Int} (hta : 0 ≤ ta ∧ ta < s.cfg.axes.kA)
    (hp : 0 ≤ p ∧ p < s.cfg.kernelLine s.params) :
    (s.stagedAddr ta p : Int) = s.cfg.scratchPtr.toNat + s.cfg.offKs s.params +
        (ta * s.cfg.kernelLine s.params + p) * s.cfg.precision.esK ∧
      s.cfg.scratchPtr.toNat + s.cfg.offKs s.params ≤ s.stagedAddr ta p ∧
      (s.stagedAddr ta p : Int) + s.cfg.precision.esK ≤
        s.cfg.scratchPtr.toNat + s.cfg.offKs s.params + s.stagedLineBytes ∧
      s.cfg.scratchPtr.toNat + s.cfg.offKs s.params + s.stagedLineBytes ≤
        s.cfg.scratchPtr.toNat + s.cfg.offAcc s.params := by
  have hes := s.cfg.precision.esK_pos
  obtain ⟨q0, q1⟩ := grid_index_lt hta hp
  have h0 := Int.mul_nonneg q0 hes.le
  have h1 := Int.mul_le_mul_of_nonneg_right (by omega :
    ta * s.cfg.kernelLine s.params + p + 1 ≤ s.cfg.axes.kA * s.cfg.kernelLine s.params) hes.le
  rw [add_mul _ 1, one_mul] at h1
  have hline := h.plan.staging
  have hoff : s.cfg.offAcc s.params = s.cfg.offKs s.params + s.cfg.stagingBytes s.params := rfl
  obtain ⟨o0, o1, o2, o3⟩ := h.offsets_order
  rw [h.stagedLineBytes_eq, State.stagedAddr, h.layout.offKs, h.layout.kernelLine,
    h.ptrPlus_scratch (by omega) (by omega)]
  omega

theorem CallOpen.ksLineStores_in :
    StoresIn (ksLineStores s) (s.cfg.scratchPtr.toNat + s.cfg.offKs s.params)
      (s.cfg.scratchPtr.toNat + s.cfg.offKs s.params + s.stagedLineBytes) := by
  intro st hst
  obtain ⟨ta, p, hta, hp, rfl⟩ := mem_ksLineStores.1 hst
  rw [h.layout.kernelLine] at hp
  obtain ⟨-, h0, h1, -⟩ := h.stagedAddr_eq hta hp
  exact ⟨h0, h1⟩

/-- The fill's bytes stand at their offsets. -/
theorem CallOpen.fillAddr_eq {b : Int} (hb : s.stagedLineBytes ≤ b) (hb' : b < s.cfg.stagingBytes s.params) :
    (ptrPlus s.cfg.scratchPtr (s.cfg.offKs s.params + b) : Int) =
      s.cfg.scratchPtr.toNat + s.cfg.offKs s.params + b := by
  have hline : 0 ≤ s.stagedLineBytes := by
    rw [h.stagedLineBytes_eq]
    exact Int.mul_nonneg (Int.mul_nonneg h.config.axes.kernel.1.le h.plan.staged.2.le)
      s.cfg.precision.esK_pos.le
  have hoff : s.cfg.offAcc s.params = s.cfg.offKs s.params + s.cfg.stagingBytes s.params := rfl
  obtain ⟨o0, o1, o2, o3⟩ := h.offsets_order
  rw [h.ptrPlus_scratch (by omega) (by omega)]
  ring

theorem CallOpen.ksFillStores_in :
    StoresIn (ksFillStores s) (s.cfg.scratchPtr.toNat + s.cfg.offKs s.params + s.stagedLineBytes)
      (s.cfg.scratchPtr.toNat + s.cfg.offAcc s.params) := by
  intro st hst
  obtain ⟨b, hb, rfl⟩ := mem_ksFillStores.1 hst
  have hoff : s.cfg.offAcc s.params = s.cfg.offKs s.params + s.cfg.stagingBytes s.params := rfl
  rw [h.layout.offAcc, h.layout.offKs] at hb
  have ha := h.fillAddr_eq (b := s.stagedLineBytes + b) (by omega) (by omega)
  rw [← add_assoc] at ha
  simp only [elemStore_addr, elemStore_len, h.layout.offKs, ha, ElemType.size]
  omega

/-- After KS_CLEAR every staging position holds `PK`: the fill begins after the last position, and all
position stores agree. -/
theorem CallOpen.load_ksClearStores (m : Memory) {ta p : Int} (hta : 0 ≤ ta ∧ ta < s.cfg.axes.kA)
    (hp : 0 ≤ p ∧ p < s.cfg.kernelLine s.params) :
    (m.applyStores (ksClearStores s)).load (s.stagedAddr ta p) s.cfg.precision.tK = s.cfg.padKer := by
  have hsize : (s.cfg.precision.tK.size : Int) = s.cfg.precision.esK := rfl
  obtain ⟨ha, h0, h1, h2⟩ := h.stagedAddr_eq hta hp
  have hspace := h.offsets_le.2.1
  have hmem : elemStore (s.stagedAddr ta p) s.cfg.precision.tK s.cfg.padKer ∈ ksLineStores s :=
    mem_ksLineStores.2 ⟨ta, p, hta, by rwa [h.layout.kernelLine], rfl⟩
  rw [ksClearStores_eq, applyStores_append, h.ksFillStores_in.load_apart hspace (by omega) fun st hst =>
    .inr (by have := (h.ksFillStores_in st hst).1; omega)]
  refine h.ksLineStores_in.load_mem (by omega) hmem h.config.padKer_holds fun x hx => ?_
  obtain ⟨ta', p', hta', hp', rfl⟩ := mem_ksLineStores.1 hx
  rw [h.layout.kernelLine] at hp'
  obtain ⟨ha', -⟩ := h.stagedAddr_eq hta' hp'
  simp only [elemStore_addr, elemStore_len, elemStore_val, hsize, and_true]
  rcases grid_apart (q := ta' * s.cfg.kernelLine s.params + p') (q' := ta * s.cfg.kernelLine s.params + p)
    s.cfg.precision.esK_pos.le with hq | hq | hq
  · rw [hq] at ha'
    exact .inl (by omega)
  · exact .inr (.inl (by omega))
  · exact .inr (.inr (by omega))

/-- After KS_CLEAR every byte of the alignment fill is 0. -/
theorem CallOpen.read_ksClearStores_fill (m : Memory) {b : Int} (hb : s.stagedLineBytes ≤ b)
    (hb' : b < s.cfg.stagingBytes s.params) :
    (m.applyStores (ksClearStores s)).read (ptrPlus s.cfg.scratchPtr (s.cfg.offKs s.params + b)) = 0 := by
  have hoff : s.cfg.offAcc s.params = s.cfg.offKs s.params + s.cfg.stagingBytes s.params := rfl
  rw [ksClearStores_eq, applyStores_append]
  refine read_applyStores_agree (fun st hst => ?_) ?_ fun st hst i hi _ => ?_
  · obtain ⟨b', -, rfl⟩ := mem_ksFillStores.1 hst
    exact (by decide : 1 ≤ Config.addressSpace)
  · refine (storesCover_iff _ _).2
      ⟨_, mem_ksFillStores.2 ⟨b - s.stagedLineBytes, ?_, rfl⟩, 0, Nat.one_pos, ?_⟩
    · rw [h.layout.offAcc, h.layout.offKs]
      omega
    · rw [elemStore_addr, h.layout.offKs, add_assoc (Cfg.offKs _ _), add_sub_cancel, Nat.add_zero]
      exact (wrapAddr_of_lt (ptrPlus_lt _ _)).symm
  · obtain ⟨b', -, rfl⟩ := mem_ksFillStores.1 hst
    rw [elemStore_val, Int.zero_ediv]
    rfl

end

/-- Settles O39: KS_CLEAR is ready, its position stores fill the staging grid with `PK` and its last stores
the alignment fill with 0. -/
theorem ksClearCompletes : Obligations.KsClearCompletes := by
  intro s ho
  refine ⟨(clearStaging s).mem, ?_, fun a ha => read_applyStores_outside ha, fun hinv => ⟨?_, ?_⟩⟩
  · rw [exec, execKsClear, (needOpen_eq_none _).2 ho, runCommand_none]
    rfl
  · intro ta p hta0 hta1 hp0 hp1
    exact (hinv.callOpen ho).load_ksClearStores s.mem ⟨hta0, hta1⟩ ⟨hp0, hp1⟩
  · intro b hb0 hb1
    have h := hinv.callOpen ho
    exact h.read_ksClearStores_fill s.mem (h.stagedLineBytes_eq ▸ hb0) hb1

end Sys2Proof.Machine

/-! SUPPORT. The proof that every step keeps the staged kernel (O41): the staging region and the kernel are
written by nothing but KS_CLEAR and KSTAGE while a call is open. -/

namespace Sys2Proof.Machine

/-! ### Tensors and their elements (20_memory.md R103, R108 to R111) -/

/-- An index into a tensor of three axes. -/
theorem index3_bounds {i j k a b c : Int} (hi : 0 ≤ i ∧ i < a) (hj : 0 ≤ j ∧ j < b) (hk : 0 ≤ k ∧ k < c) :
    0 ≤ (i * b + j) * c + k ∧ (i * b + j) * c + k < a * b * c :=
  grid_index_lt (grid_index_lt hi hj) hk

/-- An element of a placed array lies in its region. -/
theorem arrayElem_in {ptr : Word} {es idx n : Int} (hes : 0 < es) (hidx : 0 ≤ idx ∧ idx < n)
    (hpl : (regionAt ptr (n * es)).placed = true) :
    (ptr.toNat : Int) ≤ ptrPlus ptr (es * idx) ∧
      (ptrPlus ptr (es * idx) : Int) + es ≤ ptr.toNat + n * es ∧ ptr.toNat + n * es ≤ 2 ^ 32 := by
  have h0 := Int.mul_nonneg hes.le hidx.1
  have h1 := Int.mul_le_mul_of_nonneg_left (by omega : idx + 1 ≤ n) hes.le
  rw [mul_add, mul_one, mul_comm es n] at h1
  have h2 := ((Region.placed_iff _).1 hpl).2
  simp only [regionAt] at h2
  rw [ptrPlus_eq (by omega) (by omega)]
  omega

section
variable {p : Config.Params} {c : Cfg} (h : ConfigLegal p c)
include h

theorem ConfigLegal.placed_of_mem {r : Region} (hr : r ∈ c.regions p) : r.placed = true :=
  List.all_eq_true.1 h.placed r hr

/-- A kernel tap lies in the kernel region (20_memory.md R109, R113). -/
theorem ConfigLegal.kernelTap_in {oc ta tc : Int} (hoc : 0 ≤ oc ∧ oc < c.outChannels)
    (hta : 0 ≤ ta ∧ ta < c.axes.kA) (htc : 0 ≤ tc ∧ tc < c.axes.kC) :
    ∃ a : Nat, (∀ m, kernelElem c m oc ta tc = m.load a c.precision.tK) ∧
      (c.kerPtr.toNat : Int) ≤ a ∧ (a : Int) + c.precision.esK ≤ c.kerPtr.toNat + c.kernelBytes ∧
      c.kerPtr.toNat + c.kernelBytes ≤ 2 ^ 32 := by
  have hpl : (regionAt c.kerPtr c.kernelBytes).placed = true :=
    h.placed_of_mem (by simp [Cfg.regions, Cfg.readRegions])
  cases hl : c.channelFirst with
  | true =>
    simp only [Cfg.axes, hl, if_true] at hta htc
    refine ⟨c.kernelAddr oc ta tc, fun m => by simp [kernelElem, hl], ?_⟩
    simp only [Cfg.kernelAddr, hl, if_true]
    exact arrayElem_in c.precision.esK_pos (index3_bounds hoc hta htc) hpl
  | false =>
    simp only [Cfg.axes, hl] at hta htc
    refine ⟨c.kernelAddr oc tc ta, fun m => by simp [kernelElem, hl], ?_⟩
    have hbytes : c.kernelBytes = c.kH.toInt * c.kW.toInt * c.outChannels * c.precision.esK := by
      unfold Cfg.kernelBytes
      ring
    simp only [Cfg.kernelAddr, hl]
    rw [hbytes] at hpl ⊢
    exact arrayElem_in c.precision.esK_pos (index3_bounds htc hta hoc) hpl

/-- An output element lies in the output region (20_memory.md R111, R113). -/
theorem ConfigLegal.outputElem_in {oc oa wc : Int} (hoc : 0 ≤ oc ∧ oc < c.outChannels)
    (hoa : 0 ≤ oa ∧ oa < c.axes.outA) (hwc : 0 ≤ wc ∧ wc < c.axes.outC) :
    (c.outPtr.toNat : Int) ≤ c.outputAddrAc oc oa wc ∧
      (c.outputAddrAc oc oa wc : Int) + c.precision.esOut ≤ c.outPtr.toNat + c.outputBytes ∧
      c.outPtr.toNat + c.outputBytes ≤ 2 ^ 32 := by
  have hpl : (regionAt c.outPtr c.outputBytes).placed = true :=
    h.placed_of_mem (by simp [Cfg.regions, Cfg.outputRegion])
  have hes : 0 < c.precision.esOut := by cases c.precision <;> decide
  cases hl : c.channelFirst with
  | true =>
    simp only [Cfg.axes, hl, if_true] at hoa hwc
    simp only [Cfg.outputAddrAc, Cfg.outputAddr, hl, if_true]
    exact arrayElem_in hes (index3_bounds hoc hoa hwc) hpl
  | false =>
    simp only [Cfg.axes, hl] at hoa hwc
    have hbytes : c.outputBytes = c.outH.toInt * c.outW.toInt * c.outChannels * c.precision.esOut := by
      unfold Cfg.outputBytes
      ring
    simp only [Cfg.outputAddrAc, Cfg.outputAddr, hl]
    rw [hbytes] at hpl ⊢
    exact arrayElem_in hes (index3_bounds hwc hoa hoc) hpl

end

theorem mem_tileIndices {s : State} {n : Nat} {i : Nat × Nat} :
    i ∈ s.tileIndices n ↔ i.1 < n ∧ (i.2 : Int) < s.cfg.axes.outC := by
  obtain ⟨t, w⟩ := i
  simp [State.tileIndices]

theorem regionAt_has_iff (ptr : Word) (bytes : Int) (a : Nat) :
    (regionAt ptr bytes).has a = true ↔ (ptr.toNat : Int) ≤ a ∧ (a : Int) < ptr.toNat + bytes := by
  simp only [Region.has_iff, regionAt]
  omega

/-! ### The bytes the staged kernel depends on -/

/-- A byte of the staging region or of the kernel tensor. -/
def StagingReads (p : Config.Params) (c : Cfg) (a : Nat) : Prop :=
  ((c.scratchPtr.toNat : Int) + c.offKs p ≤ a ∧ (a : Int) < c.scratchPtr.toNat + c.offAcc p) ∨
    (regionAt c.kerPtr c.kernelBytes).has a = true

/-- The bytes of the staging region and of the kernel tensor are the same in both memories. -/
def KeepsStaging (s : State) (m : Memory) : Prop :=
  ∀ a, StagingReads s.params s.cfg a → m.read a = s.mem.read a

section
variable {s : State} (h : CallOpen s) {a : Nat}
include h

theorem CallOpen.scratch_has_of_staging
    (ha : (s.cfg.scratchPtr.toNat : Int) + s.cfg.offKs s.params ≤ a ∧
      (a : Int) < s.cfg.scratchPtr.toNat + s.cfg.offAcc s.params) :
    (s.cfg.scratchRegion s.params).has a = true := by
  obtain ⟨o0, o1, o2, o3⟩ := h.offsets_order
  exact (regionAt_has_iff _ _ a).2 ⟨by omega, by omega⟩

/-- Neither the output tensor nor the scratch region shares a byte with the kernel (20_memory.md R116). -/
theorem CallOpen.kernel_apart (ha : (regionAt s.cfg.kerPtr s.cfg.kernelBytes).has a = true) :
    s.cfg.outputRegion.has a = false ∧ (s.cfg.scratchRegion s.params).has a = false := by
  have hd := h.config.disjoint
  rw [Cfg.regionsDisjoint, Bool.and_eq_true, List.all_eq_true] at hd
  have hk := hd.2 (regionAt s.cfg.kerPtr s.cfg.kernelBytes) (by simp [Cfg.readRegions])
  rw [Bool.and_eq_true] at hk
  constructor
  · rw [← Bool.not_eq_true]
    intro ho
    rw [Region.not_has_of_disjoint hk.1 ho] at ha
    cases ha
  · rw [← Bool.not_eq_true]
    intro ho
    rw [Region.not_has_of_disjoint hk.2 ho] at ha
    cases ha

/-- Stores into the scratch region before or after the staging region. -/
theorem CallOpen.keepsStaging_of_scratch {l : List Store} {lo hi : Int} (hin : StoresIn l lo hi)
    (hlo : s.cfg.scratchPtr.toNat ≤ lo) (hhi : hi ≤ s.cfg.scratchPtr.toNat + s.cfg.scratchTotal s.params)
    (hout : hi ≤ s.cfg.scratchPtr.toNat + s.cfg.offKs s.params ∨
      s.cfg.scratchPtr.toNat + s.cfg.offAcc s.params ≤ lo) : KeepsStaging s (s.mem.applyStores l) := by
  have hspace := h.offsets_le.2.2
  rintro a (ha | ha)
  · exact hin.read_outside (hhi.trans hspace) (by omega)
  · have hs := (h.kernel_apart ha).2
    rw [← Bool.not_eq_true, Cfg.scratchRegion, regionAt_has_iff] at hs
    exact hin.read_outside (hhi.trans hspace) (by omega)

/-- Stores into the output tensor. -/
theorem CallOpen.keepsStaging_of_output {l : List Store}
    (hin : StoresIn l s.cfg.outPtr.toNat (s.cfg.outPtr.toNat + s.cfg.outputBytes))
    (hspace : s.cfg.outPtr.toNat + s.cfg.outputBytes ≤ 2 ^ 32) : KeepsStaging s (s.mem.applyStores l) := by
  intro a ha
  have hno : s.cfg.outputRegion.has a = false := by
    rcases ha with ha | ha
    · have hd := h.config.disjoint
      rw [Cfg.regionsDisjoint, Bool.and_eq_true] at hd
      rw [← Bool.not_eq_true]
      intro ho
      have := Region.not_has_of_disjoint hd.1 ho
      rw [h.scratch_has_of_staging ha] at this
      cases this
    · exact (h.kernel_apart ha).1
  rw [← Bool.not_eq_true, Cfg.outputRegion, regionAt_has_iff] at hno
  exact hin.read_outside hspace (by omega)

/-- A host store that touches no byte of the open call (20_memory.md R122). -/
theorem CallOpen.keepsStaging_of_host (ho : s.status.callOpen = true) {addr : Nat} {bytes : List Byte}
    (hfree : ∀ i < bytes.length, s.ownedByCall (addr + i) = false) :
    KeepsStaging s (s.mem.writeBytes addr bytes) := by
  intro a ha
  have howned : s.ownedByCall a = true := by
    rw [State.ownedByCall, ho, Bool.true_and, List.any_eq_true]
    rcases ha with ha | ha
    · exact ⟨s.cfg.scratchRegion s.params, by simp [Cfg.regions], h.scratch_has_of_staging ha⟩
    · exact ⟨_, by simp [Cfg.regions, Cfg.readRegions], ha⟩
  refine read_writeBytes_outside ?_
  by_contra hin
  have := hfree (a - addr) (by omega)
  rw [Nat.add_sub_cancel' (by omega), howned] at this
  cases this

/-! ### Where MAC_TILE and REQ_WRITE store (43_compute_loop.md R257, 44_requantization.md R280) -/

theorem CallOpen.macTileStores_in {n : Nat} (hn : n ≤ s.params.rIter) :
    StoresIn (macTileStores n s) (s.cfg.scratchPtr.toNat + s.cfg.offAcc s.params)
      (s.cfg.scratchPtr.toNat + s.cfg.scratchTotal s.params) := by
  intro st hst
  obtain ⟨i, hi, rfl⟩ := List.mem_map.1 hst
  obtain ⟨ht, hw⟩ := mem_tileIndices.1 hi
  obtain ⟨h0, h1⟩ := grid_index_lt (i := i.1) (n := s.params.rIter) ⟨Int.natCast_nonneg _, by omega⟩
    ⟨Int.natCast_nonneg i.2, hw⟩
  obtain ⟨o0, o1, o2, o3⟩ := h.offsets_order
  have htotal : s.cfg.scratchTotal s.params =
      s.cfg.offAcc s.params + s.params.rIter * s.cfg.axes.outC * 8 := rfl
  simp only [State.accStore, State.accAddr, h.layout.offAcc, Config.accEntryBytes]
  rw [h.ptrPlus_scratch (by omega) (by omega)]
  omega

end

/-- The output channel of the context is one of the output tensor's (10_state.md R61). -/
theorem Inv.contextChannel_lt {s : State} (h : Inv s) (hk : s.status.ksValid = true) :
    0 ≤ s.contextChannel ∧ s.contextChannel < s.cfg.outChannels := by
  obtain ⟨i0, i1, m0, m1⟩ := h.kernel hk
  exact grid_index_lt ⟨i0, i1⟩ ⟨m0, m1⟩

theorem Inv.reqWriteStores_in {s : State} (h : Inv s) (ha : s.status.accValid = true) :
    StoresIn (reqWriteStores s) s.cfg.outPtr.toNat (s.cfg.outPtr.toNat + s.cfg.outputBytes) := by
  obtain ⟨hk, hr⟩ := h.flags.acc ha
  have hopen := h.callOpen_of_ring hr
  have hring := h.ring hr
  have htile := h.tile ha
  intro st hst
  obtain ⟨i, hi, rfl⟩ := List.mem_map.1 hst
  obtain ⟨ht, hw⟩ := mem_tileIndices.1 hi
  have hcount := (h.decomposition (h.flags.ring hr)).count
  have hj : s.book.accJ0.toInt + i.1 < s.cfg.axes.subOutputs s.ctx.res.toInt := by
    have := htile.inside
    rw [← hring.nout]
    omega
  have hcoord : 0 ≤ s.outputCoord i.1 ∧ s.outputCoord i.1 < s.cfg.axes.outA := by
    have hx := hopen.config.axes
    have h0 := htile.start.2
    rw [State.outputCoord, hcount]
    refine ⟨?_, (hx.lt_subOutputs_iff _ (by omega)).1 hj⟩
    have := Int.mul_nonneg (by omega : 0 ≤ s.book.accJ0.toInt + i.1)
      (by linarith [hx.lattice.count_pos] : 0 ≤ s.cfg.axes.classCount)
    have := hring.resClass.1
    omega
  obtain ⟨h0, h1, -⟩ := hopen.config.outputElem_in (h.contextChannel_lt hk) hcoord
    ⟨Int.natCast_nonneg i.2, hw⟩
  exact ⟨h0, h1⟩

/-! ### The staged kernel as an invariant (42_kernel_stager.md R233) -/

/-- The invariant together with what KPAD_VALID and KS_VALID promise about the staging region. -/
structure StagedKernel (s : State) : Prop where
  /-- The machine's invariant. -/
  inv : Inv s
  /-- Positions without a tap hold `PK`. -/
  pad : s.status.kpadValid = true → StagingPadHolds s
  /-- Tap positions hold the filter. -/
  taps : s.status.ksValid = true → StagingHolds s

section
variable {s t : State}

theorem Inv.callOpen_of_kpad (h : Inv s) (hk : s.status.kpadValid = true) : CallOpen s :=
  h.callOpen (h.flags.kpad hk)

theorem stagedAddr_congr (hc : t.cfg = s.cfg) (hks : t.book.layKs = s.book.layKs)
    (hkc : t.book.layKcpad = s.book.layKcpad) (ta p : Int) : t.stagedAddr ta p = s.stagedAddr ta p := by
  simp only [State.stagedAddr, hc, hks, hkc]

/-- Position tc × D_c of a tap lies in the staged line (10_state.md R70). -/
theorem CallOpen.tapPosition (h : CallOpen s) {tc : Int} (htc : 0 ≤ tc ∧ tc < s.cfg.axes.kC) :
    0 ≤ tc * s.cfg.axes.dC ∧ tc * s.cfg.axes.dC < s.cfg.kernelLine s.params := by
  obtain ⟨-, hd⟩ := h.config.axes.dilation
  have h0 := Int.mul_nonneg htc.1 hd.le
  have h1 := Int.mul_le_mul_of_nonneg_right (by omega : tc ≤ s.cfg.axes.kC - 1) hd.le
  have h2 := h.plan.staged.1
  unfold Axes.dkeC dilatedExtent at h2
  omega

section
variable {m : Memory} (h : CallOpen s) (hm : KeepsStaging s m)
include h hm

theorem CallOpen.load_staged_of_keeps {ta p : Int} (hta : 0 ≤ ta ∧ ta < s.cfg.axes.kA)
    (hp : 0 ≤ p ∧ p < s.cfg.kernelLine s.params) :
    m.load (s.stagedAddr ta p) s.cfg.precision.tK = s.mem.load (s.stagedAddr ta p) s.cfg.precision.tK := by
  have hsize : (s.cfg.precision.tK.size : Int) = s.cfg.precision.esK := rfl
  obtain ⟨-, h0, h1, h2⟩ := h.stagedAddr_eq hta hp
  have hspace := h.offsets_le.2.1
  exact load_eq_of_read_eq (by omega) fun x hx0 hx1 => hm x (.inl ⟨by omega, by omega⟩)

theorem CallOpen.kernelElem_of_keeps {oc ta tc : Int} (hoc : 0 ≤ oc ∧ oc < s.cfg.outChannels)
    (hta : 0 ≤ ta ∧ ta < s.cfg.axes.kA) (htc : 0 ≤ tc ∧ tc < s.cfg.axes.kC) :
    kernelElem s.cfg m oc ta tc = kernelElem s.cfg s.mem oc ta tc := by
  have hsize : (s.cfg.precision.tK.size : Int) = s.cfg.precision.esK := rfl
  obtain ⟨a, hload, h0, h1, hspace⟩ := h.config.kernelTap_in hoc hta htc
  rw [hload, hload]
  exact load_eq_of_read_eq (by omega) fun x hx0 hx1 =>
    hm x (.inr ((regionAt_has_iff _ _ x).2 ⟨by omega, by omega⟩))

end

/-- What leaves the staging region, the kernel and the registers that name them alone keeps the staged
kernel. -/
theorem StagedKernel.frame (h : StagedKernel s) (hinv : Inv t)
    (hpad : t.status.kpadValid = true → s.status.kpadValid = true)
    (hks : t.status.ksValid = true → s.status.ksValid = true)
    (hcfg : t.status.kpadValid = true → t.cfg = s.cfg ∧ t.book.layKs = s.book.layKs ∧
      t.book.layKcpad = s.book.layKcpad)
    (hctx : t.status.ksValid = true → t.ctx.ic = s.ctx.ic ∧ t.ctx.m = s.ctx.m)
    (hm : t.status.kpadValid = true → KeepsStaging s t.mem) : StagedKernel t where
  inv := hinv
  pad ht ta p hta0 hta1 hp0 hp1 hno := by
    obtain ⟨hc, hlks, hlkc⟩ := hcfg ht
    have hopen := h.inv.callOpen_of_kpad (hpad ht)
    rw [hc] at hta1 hno
    rw [hlkc] at hp1
    rw [stagedAddr_congr hc hlks hlkc, hc,
      hopen.load_staged_of_keeps (hm ht) ⟨hta0, hta1⟩ ⟨hp0, hopen.layout.kernelLine ▸ hp1⟩]
    exact h.pad (hpad ht) ta p hta0 hta1 hp0 hp1 hno
  taps ht ta tc hta0 hta1 htc0 htc1 := by
    have htk := hinv.flags.staged ht
    obtain ⟨hc, hlks, hlkc⟩ := hcfg htk
    obtain ⟨hic, hmul⟩ := hctx ht
    have hopen := h.inv.callOpen_of_kpad (hpad htk)
    have hchan : t.contextChannel = s.contextChannel := by
      simp only [State.contextChannel, hc, hic, hmul]
    rw [hc] at hta1 htc1
    rw [State.stagedTap, stagedAddr_congr hc hlks hlkc, hchan, hc,
      hopen.load_staged_of_keeps (hm htk) ⟨hta0, hta1⟩ (hopen.tapPosition ⟨htc0, htc1⟩),
      hopen.kernelElem_of_keeps (hm htk) (h.inv.contextChannel_lt (hks ht)) ⟨hta0, hta1⟩ ⟨htc0, htc1⟩]
    exact h.taps (hks ht) ta tc hta0 hta1 htc0 htc1

/-- Without KPAD_VALID nothing is promised. -/
theorem StagedKernel.of_not_kpad (hinv : Inv t) (ht : t.status.kpadValid = false) : StagedKernel t where
  inv := hinv
  pad hk := by cases ht.symm.trans hk
  taps hk := by cases ht.symm.trans (hinv.flags.staged hk)

/-- A change of registers that leaves memory and the registers of the staging region alone. -/
theorem StagedKernel.sameMem (h : StagedKernel s) (hinv : Inv t)
    (hpad : t.status.kpadValid = true → s.status.kpadValid = true)
    (hks : t.status.ksValid = true → s.status.ksValid = true) (hc : t.cfg = s.cfg)
    (hlks : t.book.layKs = s.book.layKs) (hlkc : t.book.layKcpad = s.book.layKcpad)
    (hctx : t.status.ksValid = true → t.ctx.ic = s.ctx.ic ∧ t.ctx.m = s.ctx.m) (hm : t.mem = s.mem) :
    StagedKernel t :=
  h.frame hinv hpad hks (fun _ => ⟨hc, hlks, hlkc⟩) hctx fun _ a _ => by rw [hm]

/-! ### KS_CLEAR and KSTAGE -/

theorem StagedKernel.clears (h : StagedKernel s) (ho : s.status.callOpen = true) :
    StagedKernel (clearStaging s) where
  inv := h.inv.clears ho
  pad _ ta p hta0 hta1 hp0 hp1 _ := by
    have hopen := h.inv.callOpen ho
    exact hopen.load_ksClearStores s.mem ⟨hta0, hta1⟩ ⟨hp0, hopen.layout.kernelLine ▸ hp1⟩
  taps := nofun

/-- Every tap store lies in the staging region. -/
theorem CallOpen.kstageStores_in (h : CallOpen s) :
    StoresIn (kstageStores s) (s.cfg.scratchPtr.toNat + s.cfg.offKs s.params)
      (s.cfg.scratchPtr.toNat + s.cfg.offAcc s.params) := by
  intro st hst
  obtain ⟨ta, tc, hta, htc, rfl⟩ := mem_kstageStores.1 hst
  obtain ⟨-, h0, h1, h2⟩ := h.stagedAddr_eq hta (h.tapPosition htc)
  exact ⟨h0, h1.trans h2⟩

/-- The kernel is outside the scratch region, so KSTAGE leaves it alone. -/
theorem CallOpen.kernelElem_kstage (h : CallOpen s) {oc ta tc : Int}
    (hoc : 0 ≤ oc ∧ oc < s.cfg.outChannels) (hta : 0 ≤ ta ∧ ta < s.cfg.axes.kA)
    (htc : 0 ≤ tc ∧ tc < s.cfg.axes.kC) :
    kernelElem s.cfg (s.mem.applyStores (kstageStores s)) oc ta tc = kernelElem s.cfg s.mem oc ta tc := by
  have hsize : (s.cfg.precision.tK.size : Int) = s.cfg.precision.esK := rfl
  obtain ⟨o0, o1, o2, o3⟩ := h.offsets_order
  obtain ⟨a, hload, h0, h1, hspace⟩ := h.config.kernelTap_in hoc hta htc
  rw [hload, hload]
  refine load_eq_of_read_eq (by omega) fun x hx0 hx1 => ?_
  have hx := (h.kernel_apart ((regionAt_has_iff _ _ x).2 ⟨by omega, by omega⟩)).2
  rw [← Bool.not_eq_true, Cfg.scratchRegion, regionAt_has_iff] at hx
  exact h.kstageStores_in.read_outside h.offsets_le.2.1 (by omega)

/-- After KSTAGE every tap position holds its tap: two tap positions coincide only for the same tap. -/
theorem CallOpen.load_kstageStores_tap (h : CallOpen s) {ta tc : Int}
    (hta : 0 ≤ ta ∧ ta < s.cfg.axes.kA) (htc : 0 ≤ tc ∧ tc < s.cfg.axes.kC) :
    (s.mem.applyStores (kstageStores s)).load (s.stagedAddr ta (tc * s.cfg.axes.dC)) s.cfg.precision.tK =
      kernelElem s.cfg s.mem s.contextChannel ta tc := by
  have hsize : (s.cfg.precision.tK.size : Int) = s.cfg.precision.esK := rfl
  have hp := h.tapPosition htc
  obtain ⟨hd0, hd⟩ := h.config.axes.dilation
  obtain ⟨ha, -⟩ := h.stagedAddr_eq hta hp
  refine h.kstageStores_in.load_mem h.offsets_le.2.1 (mem_kstageStores.2 ⟨ta, tc, hta, htc, rfl⟩)
    (load_holds _ _ _) fun x hx => ?_
  obtain ⟨ta', tc', hta', htc', rfl⟩ := mem_kstageStores.1 hx
  have hp' := h.tapPosition htc'
  obtain ⟨ha', -⟩ := h.stagedAddr_eq hta' hp'
  simp only [elemStore_addr, elemStore_len, elemStore_val, hsize]
  rcases grid_apart (q := ta' * s.cfg.kernelLine s.params + tc' * s.cfg.axes.dC)
    (q' := ta * s.cfg.kernelLine s.params + tc * s.cfg.axes.dC) s.cfg.precision.esK_pos.le with hq | hq | hq
  · obtain ⟨rfl, htap⟩ := grid_index_inj hp' hp hq
    obtain rfl : tc' = tc := Int.eq_of_mul_eq_mul_right hd.ne' htap
    exact .inl ⟨rfl, rfl⟩
  · exact .inr (.inl (by omega))
  · exact .inr (.inr (by omega))

/-- No tap position is a position without a tap. -/
theorem tapPosition_ne_of_holdsNoTap {c : Cfg} {p tc : Int} (hd : 0 < c.axes.dC) (hno : holdsNoTap c p)
    (htc : tc < c.axes.kC) : p ≠ tc * c.axes.dC := by
  rintro rfl
  rcases hno with hno | hno
  · exact hno (Int.mul_emod_left _ _)
  · have := Int.mul_le_mul_of_nonneg_right (by omega : tc ≤ c.axes.kC - 1) hd.le
    omega

/-- KSTAGE leaves the positions without a tap alone. -/
theorem CallOpen.load_kstageStores_noTap (h : CallOpen s) {ta p : Int}
    (hta : 0 ≤ ta ∧ ta < s.cfg.axes.kA) (hp : 0 ≤ p ∧ p < s.cfg.kernelLine s.params)
    (hno : holdsNoTap s.cfg p) :
    (s.mem.applyStores (kstageStores s)).load (s.stagedAddr ta p) s.cfg.precision.tK =
      s.mem.load (s.stagedAddr ta p) s.cfg.precision.tK := by
  have hsize : (s.cfg.precision.tK.size : Int) = s.cfg.precision.esK := rfl
  obtain ⟨ha, h0, h1, h2⟩ := h.stagedAddr_eq hta hp
  have hspace := h.offsets_le.2.1
  refine h.kstageStores_in.load_apart hspace (by omega) fun st hst => ?_
  obtain ⟨ta', tc', hta', htc', rfl⟩ := mem_kstageStores.1 hst
  have hp' := h.tapPosition htc'
  obtain ⟨ha', -⟩ := h.stagedAddr_eq hta' hp'
  simp only [elemStore_addr, elemStore_len, hsize]
  rcases grid_apart (q := ta' * s.cfg.kernelLine s.params + tc' * s.cfg.axes.dC)
    (q' := ta * s.cfg.kernelLine s.params + p) s.cfg.precision.esK_pos.le with hq | hq | hq
  · obtain ⟨-, hpos⟩ := grid_index_inj hp' hp hq
    exact absurd hpos.symm (tapPosition_ne_of_holdsNoTap h.config.axes.dilation.2 hno htc'.2)
  · exact .inl (by omega)
  · exact .inr (by omega)

theorem StagedKernel.stages (h : StagedKernel s) (hpre : kstagePre s = none) :
    StagedKernel (stageKernel s) := by
  obtain ⟨ho, hk, hic, hm⟩ := (kstagePre_eq_none s).1 hpre
  have hopen := h.inv.callOpen ho
  refine ⟨h.inv.stages hpre, fun _ ta p hta0 hta1 hp0 hp1 hno => ?_, fun _ ta tc hta0 hta1 htc0 htc1 => ?_⟩
  · have hp : 0 ≤ p ∧ p < s.cfg.kernelLine s.params := ⟨hp0, hopen.layout.kernelLine ▸ hp1⟩
    exact (hopen.load_kstageStores_noTap ⟨hta0, hta1⟩ hp hno).trans
      (h.pad hk ta p hta0 hta1 hp0 hp1 hno)
  · have hchan : 0 ≤ s.contextChannel ∧ s.contextChannel < s.cfg.outChannels := grid_index_lt hic hm
    exact (hopen.load_kstageStores_tap ⟨hta0, hta1⟩ ⟨htc0, htc1⟩).trans
      (hopen.kernelElem_kstage hchan ⟨hta0, hta1⟩ ⟨htc0, htc1⟩).symm

/-! ### Every move keeps the staged kernel -/

/-- A command whose stores lie outside the staging region and the kernel. -/
theorem StagedKernel.storesApart (h : StagedKernel s) (hinv : Inv t)
    (hpad : t.status.kpadValid = s.status.kpadValid) (hks : t.status.ksValid = s.status.ksValid)
    (hc : t.cfg = s.cfg) (hlks : t.book.layKs = s.book.layKs) (hlkc : t.book.layKcpad = s.book.layKcpad)
    (hx : t.ctx = s.ctx) (hm : KeepsStaging s t.mem) : StagedKernel t :=
  h.frame hinv hpad.symm.trans hks.symm.trans (fun _ => ⟨hc, hlks, hlkc⟩)
    (fun _ => ⟨by rw [hx], by rw [hx]⟩) fun _ => hm

theorem StagedKernel.command (h : StagedKernel s) {i : Instr} (hready : CommandReady i s) :
    StagedKernel (commandEffect i s) := by
  have hinv := h.inv.command hready
  cases i with
  | nop => exact h
  | getsize => exact h
  | callBegin => exact .of_not_kpad hinv rfl
  | callEnd => exact .of_not_kpad hinv rfl
  | conv => exact .of_not_kpad hinv (by rw [commandEffect, convolve_status_closed]; rfl)
  | decomp => exact h.sameMem hinv id id rfl rfl rfl (fun _ => ⟨rfl, rfl⟩) rfl
  | cbInit =>
    have hopen := h.inv.callOpen ((cbInitPre_eq_none s).1 hready).1
    obtain ⟨o0, o1, o2, o3⟩ := hopen.offsets_order
    exact h.storesApart hinv rfl rfl rfl rfl rfl rfl
      (hopen.keepsStaging_of_scratch hopen.cbInitStores_in (by omega) (by omega) (.inl le_rfl))
  | cbFeed n =>
    have hopen := h.inv.callOpen ((cbFeedPre_eq_none n s).1 hready).1
    obtain ⟨o0, o1, o2, o3⟩ := hopen.offsets_order
    exact h.storesApart hinv rfl rfl rfl rfl rfl rfl
      (hopen.keepsStaging_of_scratch (hopen.cbFeedStores_in n) (by omega) (by omega) (.inl le_rfl))
  | ksClear => exact h.clears hready
  | kstage => exact h.stages hready
  | macTile n =>
    obtain ⟨ho, -, -, hn, -⟩ := (macTilePre_eq_none n s).1 hready.1
    have hopen := h.inv.callOpen ho
    obtain ⟨o0, o1, o2, o3⟩ := hopen.offsets_order
    exact h.storesApart hinv rfl rfl rfl rfl rfl rfl
      (hopen.keepsStaging_of_scratch (hopen.macTileStores_in hn.2) (by omega) (by omega) (.inr le_rfl))
  | reqWrite =>
    obtain ⟨ho, ha⟩ := (reqWritePre_eq_none s).1 hready
    have hopen := h.inv.callOpen ho
    have hspace := ((Region.placed_iff _).1 (hopen.config.placed_of_mem (r := s.cfg.outputRegion)
      (by simp [Cfg.regions]))).2
    simp only [Cfg.outputRegion, regionAt] at hspace
    exact h.storesApart hinv rfl rfl rfl rfl rfl rfl
      (hopen.keepsStaging_of_output (h.inv.reqWriteStores_in ha) (by omega))

theorem StagedKernel.moves (h : StagedKernel s) (hmove : Moves s t) : StagedKernel t := by
  have hinv := h.inv.moves hmove
  cases hmove with
  | idle => exact h
  | writeIc w => exact h.sameMem hinv id nofun rfl rfl rfl nofun rfl
  | writeM w => exact h.sameMem hinv id nofun rfl rfl rfl nofun rfl
  | writeRes w => exact h.sameMem hinv id id rfl rfl rfl (fun _ => ⟨rfl, rfl⟩) rfl
  | writeJ0 w => exact h.sameMem hinv id id rfl rfl rfl (fun _ => ⟨rfl, rfl⟩) rfl
  | writeCfg c => exact .of_not_kpad hinv rfl
  | hostStore addr bytes _ hfree =>
    exact h.frame hinv id id (fun _ => ⟨rfl, rfl, rfl⟩) (fun _ => ⟨rfl, rfl⟩) fun hk =>
      (h.inv.callOpen_of_kpad hk).keepsStaging_of_host (h.inv.flags.kpad hk) hfree
  | reset => exact .of_not_kpad hinv rfl
  | close => exact .of_not_kpad hinv rfl
  | dropAcc => exact h.sameMem hinv id id rfl rfl rfl (fun _ => ⟨rfl, rfl⟩) rfl
  | command i hready => exact h.command hready

theorem StagedKernel.of_sameEngine (h : StagedKernel s) (ht : SameEngine s t) : StagedKernel t := by
  have hinv := h.inv.of_sameEngine ht
  obtain ⟨-, hc, hx, hb, hm, hst⟩ := ht
  exact h.sameMem hinv (by rw [hst]; exact id) (by rw [hst]; exact id) hc (by rw [hb]) (by rw [hb])
    (fun _ => by rw [hx]; exact ⟨rfl, rfl⟩) hm

end

/-- Settles O41: every move of the engine keeps the staged kernel with the invariant. -/
theorem stepKeepsStagedKernel : Obligations.StepKeepsStagedKernel := by
  intro s t hinv hpad htaps hstep
  have h : StagedKernel t := step_keeps (fun _ _ hsame hs => hs.of_sameEngine hsame)
    (fun _ _ hs => hs.moves) ⟨hinv, hpad, htaps⟩ hstep
  exact ⟨h.pad, h.taps⟩

end Sys2Proof.Machine

/-! SUPPORT. The proofs of the family 20_memory about single accesses and regions: little-endian elements (O8),
which commands the model refuses (O14, O28), and the canonical form of memory (O56). -/

namespace Sys2Proof.Machine

/-! ### Little-endian elements (20_memory.md R102) -/

theorem readLE_eq_sum (m : Memory) (addr n : Nat) :
    m.readLE addr n = ∑ i ∈ Finset.range n, (m.read (wrapAddr (addr + i))).toNat * 256 ^ i := by
  induction n generalizing addr with
  | zero => rfl
  | succ n ih =>
    rw [Memory.readLE, ih, Finset.sum_range_succ', Finset.mul_sum, Nat.add_comm]
    congr 1
    · refine Finset.sum_congr rfl fun i _ => ?_
      rw [show addr + 1 + i = addr + (i + 1) by omega]
      ring
    · simp

/-- Settles O8: the bytes and the frame of one store, and the sum that a load forms of its bytes. -/
theorem littleEndianAccess : Obligations.LittleEndianAccess := by
  intro m addr n v hn
  have hspace : n ≤ Config.addressSpace := by
    have : n ≤ 8 := by simp only [List.mem_cons, List.not_mem_nil, or_false] at hn; omega
    exact this.trans (by decide)
  have hbytes : ∀ i < n, (m.writeLE addr n v).read (wrapAddr (addr + i)) = BitVec.ofInt 8 (v / 256 ^ i) :=
    fun _ hi => read_writeLE_at hspace hi
  exact ⟨hbytes, fun _ ha => read_writeLE_outside ha, readLE_of_bytes hbytes, readLE_eq_sum m addr n, rfl⟩

/-! ### What the model refuses (20_memory.md R103, R116; 60_exceptions.md R390) -/

theorem runCommand_goesOn (pre : Option CmdError) (effect : State → State) (s : State) :
    goesOn (runCommand pre effect s) := by
  cases pre with
  | none => exact ⟨_, runCommand_none effect s⟩
  | some e => exact ⟨_, runCommand_some e effect s⟩

theorem execGetsize_goesOn (s : State) : goesOn (execGetsize s) := by
  unfold execGetsize
  split <;> exact ⟨_, rfl⟩

theorem execMacTile_goesOn (n : Nat) (s : State) : goesOn (execMacTile n s) := by
  unfold execMacTile
  split
  · exact ⟨_, rfl⟩
  · split <;> exact ⟨_, rfl⟩

/-- Every command but BEGIN and CONV ends, with an error or without. -/
theorem exec_goesOn {i : Instr} (hbegin : i ≠ .callBegin) (hconv : i ≠ .conv) (s : State) :
    goesOn (exec i s) := by
  cases i with
  | callBegin => exact absurd rfl hbegin
  | conv => exact absurd rfl hconv
  | nop => exact ⟨_, rfl⟩
  | getsize => exact execGetsize_goesOn s
  | macTile n => exact execMacTile_goesOn n s
  | callEnd => exact runCommand_goesOn _ (fun s => releaseScratch s.close) s
  | decomp => exact runCommand_goesOn _ _ s
  | cbInit => exact runCommand_goesOn _ _ s
  | cbFeed n => exact runCommand_goesOn _ _ s
  | ksClear => exact runCommand_goesOn _ _ s
  | kstage => exact runCommand_goesOn _ _ s
  | reqWrite => exact runCommand_goesOn _ _ s

theorem callVerdict_breach {p : Config.Params} {c : Cfg} {m : Memory} {r : Refusal}
    (h : callVerdict p c m = .breach r) : r = .regionMisplaced ∨ r = .regionsOverlap := by
  unfold callVerdict at h
  split at h
  · cases h
  · split at h
    · cases h; exact .inl rfl
    · split at h
      · cases h
      · split at h
        · cases h; exact .inl rfl
        · split at h
          · cases h; exact .inr rfl
          · cases h

/-- BEGIN and CONV go on or refuse the regions. -/
theorem startCall_goesOn_or_refuses (go : State → State) (s : State) :
    goesOn (startCall go s) ∨
      ∃ r, startCall go s = .refused r ∧ (r = .regionMisplaced ∨ r = .regionsOverlap) := by
  rcases startCall_cases go s with ⟨e, -, h⟩ | ⟨r, hv, h⟩ | ⟨-, h⟩
  · exact .inl ⟨_, h⟩
  · exact .inr ⟨r, h, callVerdict_breach hv⟩
  · exact .inl ⟨_, h⟩

theorem exec_goesOn_or_refuses (i : Instr) (s : State) :
    goesOn (exec i s) ∨ ∃ r, exec i s = .refused r ∧
      (i = .callBegin ∨ i = .conv) ∧ (r = .regionMisplaced ∨ r = .regionsOverlap) := by
  by_cases hbegin : i = .callBegin
  · subst hbegin
    exact (startCall_goesOn_or_refuses id s).imp_right fun ⟨r, h, hr⟩ => ⟨r, h, .inl rfl, hr⟩
  · by_cases hconv : i = .conv
    · subst hconv
      exact (startCall_goesOn_or_refuses convolve s).imp_right fun ⟨r, h, hr⟩ => ⟨r, h, .inr rfl, hr⟩
    · exact .inl (exec_goesOn hbegin hconv s)

/-- Settles O14: a command goes on, or is BEGIN or CONV and refuses its regions. -/
theorem commandsNeverFault : Obligations.CommandsNeverFault := by
  intro i s
  rcases exec_goesOn_or_refuses i s with ⟨t, h⟩ | ⟨r, h, hi, hr⟩
  · rw [h]
    exact ⟨nofun, nofun⟩
  · rw [h]
    refine ⟨nofun, fun r' heq => ?_⟩
    cases heq
    exact ⟨hi, hr⟩

theorem shiftArrayPlaced_of_regionsPlaced {p : Config.Params} {c : Cfg} (h : c.regionsPlaced p = true) :
    shiftArrayPlaced c = true := by
  unfold shiftArrayPlaced
  cases hper : c.precision.perChannel with
  | false => rfl
  | true => exact List.all_eq_true.1 h c.shiftRegion (by simp [Cfg.regions, Cfg.readRegions, hper])

theorem startCall_of_breach {s : State} {r : Refusal} (h : callVerdict s.params s.cfg s.mem = .breach r)
    (go : State → State) : startCall go s = .refused r := by
  simp [startCall, h]

/-- With every check passed, only the regions decide (log 5). -/
theorem callVerdict_of_checks {p : Config.Params} {c : Cfg} {m : Memory} (hshape : checkShape c = none)
    (hcap : checkCapacity p c = none) (hargs : checkArgs c = none) (hshift : checkShiftArray c m = none) :
    callVerdict p c m =
      if c.regionsPlaced p = false then .breach .regionMisplaced
      else if c.regionsDisjoint p = false then .breach .regionsOverlap
      else .accept := by
  have hfirst : firstFailure [checkShape c, checkCapacity p c, checkArgs c] = none := by
    rw [hshape, hcap, hargs]
    rfl
  cases hpl : c.regionsPlaced p with
  | false => cases hsh : shiftArrayPlaced c <;> simp [callVerdict, hfirst, hshift, hpl, hsh]
  | true =>
    have hsh := shiftArrayPlaced_of_regionsPlaced hpl
    cases hd : c.regionsDisjoint p <;> simp [callVerdict, hfirst, hshift, hpl, hsh, hd]

/-- Settles O28: with every check passed the verdict is the regions'. -/
theorem breachedRegionsRefused : Obligations.BreachedRegionsRefused := by
  intro s hshape hcap hargs hshift
  have hverdict := callVerdict_of_checks hshape hcap hargs hshift
  refine ⟨fun hpl => ?_, fun hpl hd => ?_⟩
  · rw [if_pos hpl] at hverdict
    exact ⟨startCall_of_breach hverdict id, startCall_of_breach hverdict convolve⟩
  · rw [if_neg (by simp [hpl]), if_pos hd] at hverdict
    exact ⟨startCall_of_breach hverdict id, startCall_of_breach hverdict convolve⟩

/-! ### The canonical form of memory (20_memory.md R100) -/

theorem commandEffect_mem_wf (i : Instr) {s : State} (h : s.mem.wf = true) :
    (commandEffect i s).mem.wf = true := by
  have hkept := keptByConv_mem_wf
  cases i with
  | nop => exact h
  | getsize => exact h
  | callBegin => exact h
  | callEnd => exact hkept.release _ h
  | conv => exact hkept.convolve h
  | decomp => exact h
  | cbInit => exact hkept.initRing _ h
  | cbFeed n => exact hkept.feedRing n _ h
  | ksClear => exact hkept.clearStaging _ h
  | kstage => exact hkept.stageKernel _ h
  | macTile n => exact hkept.computeTile n _ h
  | reqWrite => exact hkept.writeTile _ h

theorem moves_mem_wf {s t : State} (h : s.mem.wf = true) (hmove : Moves s t) : t.mem.wf = true := by
  cases hmove with
  | hostStore addr bytes hin _ => exact wf_writeBytes h hin
  | command i _ => exact commandEffect_mem_wf i h
  | _ => exact h

/-- Settles O56: every move of the engine keeps the canonical form. -/
theorem stepKeepsMemoryCanonical : Obligations.StepKeepsMemoryCanonical := by
  intro s t h hstep
  exact step_keeps (P := fun s => s.mem.wf = true) (fun _ _ hsame hs => by rw [hsame.mem]; exact hs)
    (fun _ _ => moves_mem_wf) h hstep

end Sys2Proof.Machine

/-! SUPPORT. The bytes each command may write (O57): the stores of a component command lie in its own region,
and CONV is a run of component commands that are all ready. -/

namespace Sys2Proof.Machine

/-! ### Bytes of the scratch region -/

theorem inScratch_iff {c : Cfg} {lo hi : Int} {a : Nat} :
    inScratch c lo hi a = true ↔
      (c.scratchPtr.toNat : Int) + lo ≤ a ∧ (a : Int) < c.scratchPtr.toNat + hi := by
  rw [inScratch, Bool.and_eq_true, decide_eq_true_eq, decide_eq_true_eq]

theorem inScratch_eq_false_iff {c : Cfg} {lo hi : Int} {a : Nat} :
    inScratch c lo hi a = false ↔
      (a : Int) < c.scratchPtr.toNat + lo ∨ (c.scratchPtr.toNat : Int) + hi ≤ a := by
  rw [← Bool.not_eq_true, inScratch_iff]
  omega

theorem StoresIn.append {l l' : List Store} {lo hi : Int} (h : StoresIn l lo hi) (h' : StoresIn l' lo hi) :
    StoresIn (l ++ l') lo hi :=
  fun st hst => (List.mem_append.1 hst).elim (h st) (h' st)

theorem StoresIn.mono {l : List Store} {lo hi lo' hi' : Int} (h : StoresIn l lo hi) (hlo : lo' ≤ lo)
    (hhi : hi ≤ hi') : StoresIn l lo' hi' :=
  fun st hst => ⟨hlo.trans (h st hst).1, (h st hst).2.trans hhi⟩

theorem StoresIn.read_of_not_inScratch {l : List Store} {c : Cfg} {lo hi : Int} {m : Memory} {a : Nat}
    (h : StoresIn l (c.scratchPtr.toNat + lo) (c.scratchPtr.toNat + hi))
    (hspace : c.scratchPtr.toNat + hi ≤ 2 ^ 32) (ha : inScratch c lo hi a = false) :
    (m.applyStores l).read a = m.read a :=
  h.read_outside hspace (inScratch_eq_false_iff.1 ha)

section
variable {s : State} (h : CallOpen s)
include h

theorem CallOpen.ksClearStores_in :
    StoresIn (ksClearStores s) (s.cfg.scratchPtr.toNat + s.cfg.offKs s.params)
      (s.cfg.scratchPtr.toNat + s.cfg.offAcc s.params) := by
  have hoff : s.cfg.offAcc s.params = s.cfg.offKs s.params + s.cfg.stagingBytes s.params := rfl
  have hline : 0 ≤ s.stagedLineBytes ∧ s.stagedLineBytes ≤ s.cfg.stagingBytes s.params := by
    rw [h.stagedLineBytes_eq]
    exact ⟨Int.mul_nonneg (Int.mul_nonneg h.config.axes.kernel.1.le h.plan.staged.2.le)
      s.cfg.precision.esK_pos.le, h.plan.staging⟩
  exact (h.ksLineStores_in.mono le_rfl (by omega)).append (h.ksFillStores_in.mono (by omega) le_rfl)

/-- A release touches no byte but those of the scratch region after its header (46_conv_sequencer.md R361). -/
theorem CallOpen.read_releaseScratch {a : Nat}
    (ha : inScratch s.cfg (Cfg.offCb s.params) (s.cfg.scratchTotal s.params) a = false) :
    (releaseScratch s).mem.read a = s.mem.read a := by
  have hspace := h.offsets_le.2.2
  obtain ⟨o0, o1, o2, o3⟩ := h.offsets_order
  have hbase := h.ptrPlus_scratch o0 (by omega)
  rw [inScratch_eq_false_iff] at ha
  refine read_forgetRange_outside fun i hi => ?_
  rw [h.layout.offCb, h.layout.total] at hi
  rw [h.layout.offCb, wrapAddr_of_lt (show ptrPlus s.cfg.scratchPtr (Cfg.offCb s.params) + i < 2 ^ 32 by omega)]
  omega

/-- The footprint of every command lies in what the call may write (20_memory.md R114, R115). -/
theorem CallOpen.commandWrites_eq_false {a : Nat} (ha : writableByCall s.params s.cfg a = false)
    (i : Instr) : commandWrites i s.params s.cfg a = false := by
  obtain ⟨o0, o1, o2, o3⟩ := h.offsets_order
  have hhdr : Cfg.offCb s.params = s.params.hdrBytes := rfl
  have hw := ha
  rw [writableByCall, Bool.or_eq_false_iff] at hw
  obtain ⟨hout, hscr⟩ := hw
  have hscratch : (a : Int) < s.cfg.scratchPtr.toNat + Cfg.offCb s.params ∨
      s.cfg.scratchPtr.toNat + s.cfg.scratchTotal s.params ≤ a := by
    rw [← Bool.not_eq_true, Bool.and_eq_true, Cfg.scratchRegion, regionAt_has_iff, decide_eq_true_eq] at hscr
    omega
  cases i with
  | nop => rfl
  | getsize => rfl
  | callBegin => rfl
  | decomp => rfl
  | conv => exact ha
  | reqWrite => exact hout
  | callEnd => exact inScratch_eq_false_iff.2 hscratch
  | cbInit => exact inScratch_eq_false_iff.2 (by omega)
  | cbFeed n => exact inScratch_eq_false_iff.2 (by omega)
  | ksClear => exact inScratch_eq_false_iff.2 (by omega)
  | kstage => exact inScratch_eq_false_iff.2 (by omega)
  | macTile n => exact inScratch_eq_false_iff.2 (by omega)

end

/-! ### The footprint of each component command (20_memory.md R114, R115) -/

section
variable {s : State} (h : CallOpen s) {a : Nat}
include h

theorem CallOpen.read_initRing (ha : commandWrites .cbInit s.params s.cfg a = false) :
    (initRing s).mem.read a = s.mem.read a :=
  h.cbInitStores_in.read_of_not_inScratch h.offsets_le.1 ha

theorem CallOpen.read_feedRing {n : Nat} (ha : commandWrites (.cbFeed n) s.params s.cfg a = false) :
    (feedRing n s).mem.read a = s.mem.read a :=
  (h.cbFeedStores_in n).read_of_not_inScratch h.offsets_le.1 ha

theorem CallOpen.read_clearStaging (ha : commandWrites .ksClear s.params s.cfg a = false) :
    (clearStaging s).mem.read a = s.mem.read a :=
  h.ksClearStores_in.read_of_not_inScratch h.offsets_le.2.1 ha

theorem CallOpen.read_stageKernel (ha : commandWrites .kstage s.params s.cfg a = false) :
    (stageKernel s).mem.read a = s.mem.read a :=
  h.kstageStores_in.read_of_not_inScratch h.offsets_le.2.1 ha

theorem CallOpen.read_computeTile {n : Nat} (hn : n ≤ s.params.rIter)
    (ha : commandWrites (.macTile n) s.params s.cfg a = false) :
    (computeTile n s).mem.read a = s.mem.read a :=
  (h.macTileStores_in hn).read_of_not_inScratch h.offsets_le.2.2 ha

omit h

theorem Inv.read_writeTile (h : Inv s) (hacc : s.status.accValid = true)
    (ha : commandWrites .reqWrite s.params s.cfg a = false) : (writeTile s).mem.read a = s.mem.read a := by
  have hopen := h.callOpen_of_ring (h.flags.acc hacc).2
  have hspace := ((Region.placed_iff _).1 (hopen.config.placed_of_mem (r := s.cfg.outputRegion)
    (by simp [Cfg.regions]))).2
  rw [commandWrites, ← Bool.not_eq_true, Cfg.outputRegion, regionAt_has_iff] at ha
  simp only [Cfg.outputRegion, regionAt] at hspace
  exact (h.reqWriteStores_in hacc).read_outside (by omega) (by omega)

end

/-! ### CONV as a run of component commands (46_conv_sequencer.md R356) -/

/-- What holds of `t` between two component commands of a CONV that began in `s`. -/
structure ConvRun (s t : State) : Prop where
  /-- The machine's invariant. -/
  inv : Inv t
  /-- The implementation parameters stay. -/
  params : t.params = s.params
  /-- The CFG registers stay. -/
  cfg : t.cfg = s.cfg
  /-- The call is open, decomposed, and its staging region padded. -/
  flags : t.status.callOpen = true ∧ t.status.decValid = true ∧ t.status.kpadValid = true
  /-- A byte the call may not write is unchanged. -/
  frame : ∀ a, writableByCall s.params s.cfg a = false → t.mem.read a = s.mem.read a

/-- A run inside one filter: the ring is initialised, the kernel staged, the class has `nout` outputs. -/
structure FilterRun (s : State) (nout : Int) (t : State) : Prop extends ConvRun s t where
  /-- The ring is initialised. -/
  ring : t.status.cbState ≠ .uninitialized
  /-- The kernel is staged. -/
  staged : t.status.ksValid = true
  /-- `SUB_NOUT` -/
  nout : t.book.subNout.toInt = nout

theorem toInt_ofNat_of_le {k : Nat} (h : (k : Int) ≤ Config.countMax) : (BitVec.ofNat 32 k).toInt = k := by
  rw [← BitVec.ofInt_natCast]
  exact toInt_ofInt_of_isCount ⟨Int.natCast_nonneg k, h⟩

/-- A tile of CONV starts at an output of the class. -/
theorem lt_of_mem_tileStarts {rIter nout j0 : Nat} (h : j0 ∈ tileStarts rIter nout) : j0 < nout := by
  obtain ⟨i, hi, rfl⟩ := List.mem_map.1 h
  have hlt := List.mem_range.1 hi
  rcases Nat.eq_zero_or_pos rIter with rfl | hpos
  · simp at hlt
  · have := (Nat.le_div_iff_mul_le hpos).1 (Nat.succ_le_of_lt hlt)
    rw [Nat.succ_mul] at this
    omega

section
variable {s t u : State}

theorem ConvRun.callOpen (h : ConvRun s t) : CallOpen t := h.inv.callOpen h.flags.1

theorem ConvRun.decCount (h : ConvRun s t) : t.book.decCount.toInt = s.cfg.axes.classCount := by
  rw [(h.inv.decomposition h.flags.2.1).count, h.cfg]

/-- A component command that keeps the invariant and its own footprint goes on with the run. -/
theorem ConvRun.next (h : ConvRun s t) (hinv : Inv u) (hp : u.params = t.params) (hc : u.cfg = t.cfg)
    (hflags : u.status.callOpen = true ∧ u.status.decValid = true ∧ u.status.kpadValid = true) (i : Instr)
    (hread : ∀ a, commandWrites i t.params t.cfg a = false → u.mem.read a = t.mem.read a) : ConvRun s u where
  inv := hinv
  params := hp.trans h.params
  cfg := hc.trans h.cfg
  flags := hflags
  frame a ha := by
    have hat : writableByCall t.params t.cfg a = false := by rw [h.params, h.cfg]; exact ha
    exact (hread a (h.callOpen.commandWrites_eq_false hat i)).trans (h.frame a ha)

theorem ConvRun.writeJ0 (h : ConvRun s t) (w : Word) : ConvRun s (t.writeJ0 w) :=
  h.next (h.inv.writeJ0 w) rfl rfl h.flags .nop fun _ _ => rfl

theorem ConvRun.context (h : ConvRun s t) (r ic m : Nat) : ConvRun s (convContext r ic m t) :=
  h.next ((((h.inv.writeIc _).writeM _).writeRes _).writeJ0 _) rfl rfl h.flags .nop fun _ _ => rfl

theorem ConvRun.initRing (h : ConvRun s t) (hpre : cbInitPre t = none) : ConvRun s (initRing t) :=
  h.next (h.inv.primes hpre) rfl rfl h.flags .cbInit fun _ => h.callOpen.read_initRing

theorem ConvRun.stageKernel (h : ConvRun s t) (hpre : kstagePre t = none) : ConvRun s (stageKernel t) :=
  h.next (h.inv.stages hpre) rfl rfl h.flags .kstage fun _ => h.callOpen.read_stageKernel

theorem ConvRun.feedRing {n : Nat} (h : ConvRun s t) (hpre : cbFeedPre n t = none) :
    ConvRun s (feedRing n t) :=
  h.next (h.inv.feeds hpre) rfl rfl h.flags (.cbFeed n) fun _ => h.callOpen.read_feedRing

theorem ConvRun.computeTile {n : Nat} (h : ConvRun s t) (hpre : macTilePre n t = none) :
    ConvRun s (computeTile n t) :=
  h.next (h.inv.computes hpre) rfl rfl h.flags (.macTile n) fun _ =>
    h.callOpen.read_computeTile ((macTilePre_eq_none n t).1 hpre).2.2.2.1.2

theorem ConvRun.writeTile (h : ConvRun s t) (hacc : t.status.accValid = true) : ConvRun s (writeTile t) :=
  h.next h.inv.writes rfl rfl h.flags .reqWrite fun _ => h.inv.read_writeTile hacc

/-- The tile's context and size meet the preconditions of CB_FEED and MAC_TILE (41_circular_buffer.md R194,
43_compute_loop.md R250). -/
theorem FilterRun.convTile {nout : Int} (h : FilterRun s nout t) {j0 n : Nat} (hn : 1 ≤ n ∧ n ≤ s.params.rIter)
    (hplace : (j0 + n : Int) ≤ nout) : FilterRun s nout (convTile j0 n t) := by
  have hnout : nout ≤ Config.countMax := h.nout ▸ toInt_le_countMax _
  have hj0 : (BitVec.ofNat 32 j0).toInt = j0 := toInt_ofNat_of_le (by omega)
  have hsize : 1 ≤ n ∧ n ≤ t.params.rIter := by rw [h.params]; exact hn
  have hplace' : 0 ≤ (BitVec.ofNat 32 j0).toInt ∧ (BitVec.ofNat 32 j0).toInt + n ≤ t.book.subNout.toInt := by
    rw [hj0, h.nout]
    exact ⟨Int.natCast_nonneg j0, hplace⟩
  have hfeed := (h.toConvRun.writeJ0 (BitVec.ofNat 32 j0)).feedRing
    ((cbFeedPre_eq_none n _).2 ⟨h.flags.1, h.ring, hsize, hplace'⟩)
  have hmac := hfeed.computeTile ((macTilePre_eq_none n _).2 ⟨h.flags.1, nofun, h.staged, hsize, hplace'⟩)
  exact ⟨hmac.writeTile rfl, nofun, h.staged, h.nout⟩

theorem FilterRun.convTiles {nout : Int} (h : FilterRun s nout t) : FilterRun s nout (convTiles t) := by
  have hnout := h.nout
  refine List.foldlRecOn _ _ h fun u hu j0 hj0 => ?_
  have hr : 2 ≤ u.params.rIter := ((params_ok_iff _).1 hu.inv.params).1
  have hlt := lt_of_mem_tileStarts hj0
  exact hu.convTile ⟨by omega, by rw [← hu.params]; exact min_le_left _ _⟩ (by omega)

/-- The context of a filter meets the preconditions of CB_INIT and KSTAGE (41_circular_buffer.md R192,
42_kernel_stager.md R232). -/
theorem ConvRun.convFilter (h : ConvRun s t) {r ic m : Nat} (hr : (r : Int) < s.cfg.axes.classCount)
    (hic : (ic : Int) < s.cfg.inC.toInt) (hm : (m : Int) < s.cfg.chMult.toInt) :
    ConvRun s (convFilter r ic m t) := by
  have hcount : s.cfg.axes.classCount ≤ Config.countMax := h.decCount ▸ toInt_le_countMax _
  have ric : (BitVec.ofNat 32 ic).toInt = ic :=
    toInt_ofNat_of_le (hic.le.trans (toInt_le_countMax _))
  have rm : (BitVec.ofNat 32 m).toInt = m := toInt_ofNat_of_le (hm.le.trans (toInt_le_countMax _))
  have rr : (BitVec.ofNat 32 r).toInt = r := toInt_ofNat_of_le (hr.le.trans hcount)
  have hictx : 0 ≤ (BitVec.ofNat 32 ic).toInt ∧ (BitVec.ofNat 32 ic).toInt < t.cfg.inC.toInt := by
    rw [ric, h.cfg]
    exact ⟨Int.natCast_nonneg ic, hic⟩
  have hmctx : 0 ≤ (BitVec.ofNat 32 m).toInt ∧ (BitVec.ofNat 32 m).toInt < t.cfg.chMult.toInt := by
    rw [rm, h.cfg]
    exact ⟨Int.natCast_nonneg m, hm⟩
  have hrctx : 0 ≤ (BitVec.ofNat 32 r).toInt ∧ (BitVec.ofNat 32 r).toInt < t.book.decCount.toInt := by
    rw [rr, h.decCount]
    exact ⟨Int.natCast_nonneg r, hr⟩
  have hinit := (h.context r ic m).initRing
    ((cbInitPre_eq_none _).2 ⟨h.flags.1, h.flags.2.1, hictx, hrctx⟩)
  unfold Machine.convFilter
  dsimp only
  split
  · exact hinit
  · have hstage := hinit.stageKernel ((kstagePre_eq_none _).2 ⟨h.flags.1, h.flags.2.2, hictx, hmctx⟩)
    have hfilter : FilterRun s _ (Machine.stageKernel (Machine.initRing (convContext r ic m t))) :=
      ⟨hstage, nofun, rfl, rfl⟩
    exact hfilter.convTiles.toConvRun

theorem ConvRun.convLoops (h : ConvRun s t) : ConvRun s (convLoops t) := by
  have hcount := h.decCount
  refine List.foldlRecOn _ _ h fun u hu r hr => ?_
  refine List.foldlRecOn _ _ hu fun v hv ic hic => ?_
  refine List.foldlRecOn _ _ hv fun w hw m hm => ?_
  have hr' := List.mem_range.1 hr
  have hic' := List.mem_range.1 hic
  have hm' := List.mem_range.1 hm
  rw [hu.cfg] at hic'
  rw [hv.cfg] at hm'
  exact hw.convFilter (by omega) (by omega) (by omega)

/-- BEGIN's part of CONV, DECOMP and KS_CLEAR start the run. -/
theorem Inv.convRun (h : Inv s) (hv : callVerdict s.params s.cfg s.mem = .accept) :
    ConvRun s (clearStaging (decompose (openCall s.close))) := by
  have hdec : Inv (decompose (openCall s.close)) := (h.opens hv).decomposes rfl
  have hopen : CallOpen (decompose (openCall s.close)) := hdec.callOpen rfl
  exact ⟨hdec.clears rfl, rfl, rfl, ⟨rfl, rfl, rfl⟩,
    fun a ha => hopen.read_clearStaging (hopen.commandWrites_eq_false ha .ksClear)⟩

/-- No part of CONV, its release of the scratch region included, leaves the footprint of the call. -/
theorem Inv.read_convolve (h : Inv s) (hv : callVerdict s.params s.cfg s.mem = .accept) {a : Nat}
    (ha : writableByCall s.params s.cfg a = false) :
    (convolve (openCall s.close)).mem.read a = s.mem.read a := by
  have hrun := (h.convRun hv).convLoops
  have hat := hrun.callOpen.commandWrites_eq_false (a := a) (by rw [hrun.params, hrun.cfg]; exact ha) .callEnd
  calc (convolve (openCall s.close)).mem.read a
      = (convLoops (clearStaging (decompose (openCall s.close)))).mem.read a :=
        hrun.callOpen.read_releaseScratch hat
    _ = s.mem.read a := hrun.frame a ha

/-! ### The footprint of a command -/

theorem Inv.read_commandEffect (h : Inv s) {i : Instr} (hready : CommandReady i s) {a : Nat}
    (ha : commandWrites i s.params s.cfg a = false) : (commandEffect i s).mem.read a = s.mem.read a := by
  cases i with
  | nop => rfl
  | getsize => rfl
  | callBegin => rfl
  | decomp => rfl
  | callEnd => exact (h.callOpen hready).read_releaseScratch ha
  | conv => exact h.read_convolve hready ha
  | cbInit => exact (h.callOpen ((cbInitPre_eq_none s).1 hready).1).read_initRing ha
  | cbFeed n => exact (h.callOpen ((cbFeedPre_eq_none n s).1 hready).1).read_feedRing ha
  | ksClear => exact (h.callOpen hready).read_clearStaging ha
  | kstage => exact (h.callOpen ((kstagePre_eq_none s).1 hready).1).read_stageKernel ha
  | macTile n =>
    obtain ⟨ho, -, -, hn, -⟩ := (macTilePre_eq_none n s).1 hready.1
    exact (h.callOpen ho).read_computeTile hn.2 ha
  | reqWrite => exact h.read_writeTile ((reqWritePre_eq_none s).1 hready).2 ha

end

/-- Settles O57: an early end leaves memory alone, and an effect keeps its footprint. -/
theorem commandFootprint : Obligations.CommandFootprint := by
  intro i s t hinv hexec a ha
  cases exec_ends hexec with
  | error e => rfl
  | rejected e _ => rfl
  | underrun n k _ => rfl
  | done v hready => exact hinv.read_commandEffect hready ha

end Sys2Proof.Machine

/-! SUPPORT. The proof that every step keeps the ring's contents (O35): while the circular buffer is
initialised only CB_FEED writes the ring, and its last appends to each slot are the entries kept. -/

namespace Sys2Proof.Machine

/-! ### The input tensor (20_memory.md R108, R113, R116) -/

/-- A sample lies in the input region. -/
theorem ConfigLegal.inputElem_in {p : Config.Params} {c : Cfg} (h : ConfigLegal p c) {ic qa vc : Int}
    (hic : 0 ≤ ic ∧ ic < c.inC.toInt) (hqa : 0 ≤ qa ∧ qa < c.axes.inA) (hvc : 0 ≤ vc ∧ vc < c.axes.inC) :
    ∃ a : Nat, (∀ m, inputElem c m ic qa vc = m.load a c.precision.tIn) ∧
      (c.inPtr.toNat : Int) ≤ a ∧ (a : Int) + c.precision.esIn ≤ c.inPtr.toNat + c.inputBytes ∧
      c.inPtr.toNat + c.inputBytes ≤ 2 ^ 32 := by
  have hpl : (regionAt c.inPtr c.inputBytes).placed = true :=
    h.placed_of_mem (by simp [Cfg.regions, Cfg.readRegions])
  cases hl : c.channelFirst with
  | true =>
    simp only [Cfg.axes, hl, if_true] at hqa hvc
    refine ⟨c.inputAddr ic qa vc, fun m => by simp [inputElem, hl], ?_⟩
    simp only [Cfg.inputAddr, hl, if_true]
    exact arrayElem_in c.precision.esIn_pos (index3_bounds hic hqa hvc) hpl
  | false =>
    simp only [Cfg.axes, hl] at hqa hvc
    refine ⟨c.inputAddr ic vc qa, fun m => by simp [inputElem, hl], ?_⟩
    have hbytes : c.inputBytes = c.inH.toInt * c.inW.toInt * c.inC.toInt * c.precision.esIn := by
      unfold Cfg.inputBytes
      ring
    simp only [Cfg.inputAddr, hl]
    rw [hbytes] at hpl ⊢
    exact arrayElem_in c.precision.esIn_pos (index3_bounds hvc hqa hic) hpl

/-- A ring sample depends on the bytes of the input tensor only (41_circular_buffer.md R195). -/
theorem ConfigLegal.ringSample_congr {p : Config.Params} {c : Cfg} (h : ConfigLegal p c) {m m' : Memory}
    (hm : ∀ a, (regionAt c.inPtr c.inputBytes).has a = true → m'.read a = m.read a) {ic : Int}
    (hic : 0 ≤ ic ∧ ic < c.inC.toInt) (q u : Int) : ringSample c m' ic q u = ringSample c m ic q u := by
  unfold ringSample
  split
  · rename_i hin
    obtain ⟨hq0, hq1, hv0, hv1⟩ := hin
    have hsize : (c.precision.tIn.size : Int) = c.precision.esIn := rfl
    obtain ⟨a, hload, h0, h1, hspace⟩ := h.inputElem_in hic ⟨hq0, hq1⟩ ⟨hv0, hv1⟩
    rw [hload, hload]
    exact load_eq_of_read_eq (by omega) fun x hx0 hx1 =>
      hm x ((regionAt_has_iff _ _ x).2 ⟨by omega, by omega⟩)
  · rfl

theorem ConfigLegal.ringSample_holds {p : Config.Params} {c : Cfg} (h : ConfigLegal p c) (m : Memory)
    (ic q u : Int) : c.precision.tIn.holds (ringSample c m ic q u) := by
  unfold ringSample
  split
  · exact load_holds _ _ _
  · exact h.padIn_holds

/-- Neither the output tensor nor the scratch region shares a byte with a region the engine only reads
(20_memory.md R116). -/
theorem ConfigLegal.readRegion_apart {p : Config.Params} {c : Cfg} (h : ConfigLegal p c) {r : Region}
    (hr : r ∈ c.readRegions) {a : Nat} (ha : r.has a = true) :
    c.outputRegion.has a = false ∧ (c.scratchRegion p).has a = false := by
  have hd := h.disjoint
  rw [Cfg.regionsDisjoint, Bool.and_eq_true, List.all_eq_true] at hd
  obtain ⟨hout, hscr⟩ := Bool.and_eq_true_iff.1 (hd.2 r hr)
  rw [← Bool.not_eq_true, ← Bool.not_eq_true]
  refine ⟨fun ho => ?_, fun hs => ?_⟩
  · cases (Region.not_has_of_disjoint hout ho).symm.trans ha
  · cases (Region.not_has_of_disjoint hscr hs).symm.trans ha

/-! ### The bytes the ring's contents depend on -/

/-- A byte of the ring or of the input tensor. -/
def RingReads (p : Config.Params) (c : Cfg) (a : Nat) : Prop :=
  inScratch c (Cfg.offCb p) (c.offKs p) a = true ∨ (regionAt c.inPtr c.inputBytes).has a = true

/-- The bytes of the ring and of the input tensor are the same in both memories. -/
def KeepsRing (s : State) (m : Memory) : Prop :=
  ∀ a, RingReads s.params s.cfg a → m.read a = s.mem.read a

/-- A host store that the model performs leaves the bytes of an open call alone (20_memory.md R122). -/
theorem read_writeBytes_of_owned {s : State} {addr : Nat} {bytes : List Byte}
    (hfree : ∀ i < bytes.length, s.ownedByCall (addr + i) = false) {a : Nat} (ha : s.ownedByCall a = true) :
    (s.mem.writeBytes addr bytes).read a = s.mem.read a := by
  refine read_writeBytes_outside ?_
  by_contra hin
  have hf := hfree (a - addr) (by omega)
  rw [Nat.add_sub_cancel' (by omega)] at hf
  cases hf.symm.trans ha

section
variable {s : State} (h : CallOpen s) {a : Nat}
include h

theorem CallOpen.input_apart (ha : (regionAt s.cfg.inPtr s.cfg.inputBytes).has a = true) :
    s.cfg.outputRegion.has a = false ∧ (s.cfg.scratchRegion s.params).has a = false :=
  h.config.readRegion_apart (by simp [Cfg.readRegions]) ha

theorem CallOpen.input_not_inScratch (ha : (regionAt s.cfg.inPtr s.cfg.inputBytes).has a = true)
    {lo hi : Int} (hlo : 0 ≤ lo) (hhi : hi ≤ s.cfg.scratchTotal s.params) :
    inScratch s.cfg lo hi a = false := by
  have hs := (h.input_apart ha).2
  rw [← Bool.not_eq_true, Cfg.scratchRegion, regionAt_has_iff] at hs
  exact inScratch_eq_false_iff.2 (by omega)

theorem CallOpen.scratch_has_of_ring (ha : inScratch s.cfg (Cfg.offCb s.params) (s.cfg.offKs s.params) a = true) :
    (s.cfg.scratchRegion s.params).has a = true := by
  obtain ⟨o0, o1, o2, o3⟩ := h.offsets_order
  obtain ⟨h0, h1⟩ := inScratch_iff.1 ha
  exact (regionAt_has_iff _ _ a).2 ⟨by omega, by omega⟩

theorem CallOpen.ringReads_owned (ho : s.status.callOpen = true) (ha : RingReads s.params s.cfg a) :
    s.ownedByCall a = true := by
  rw [State.ownedByCall, ho, Bool.true_and, List.any_eq_true]
  rcases ha with ha | ha
  · exact ⟨s.cfg.scratchRegion s.params, by simp [Cfg.regions], h.scratch_has_of_ring ha⟩
  · exact ⟨_, by simp [Cfg.regions, Cfg.readRegions], ha⟩

/-- The rest of the scratch region, beyond the ring. -/
theorem CallOpen.ringReads_not_inScratch (ha : RingReads s.params s.cfg a) {lo hi : Int}
    (hlo : s.cfg.offKs s.params ≤ lo) (hhi : hi ≤ s.cfg.scratchTotal s.params) :
    inScratch s.cfg lo hi a = false := by
  obtain ⟨o0, o1, o2, o3⟩ := h.offsets_order
  rcases ha with ha | ha
  · obtain ⟨h0, h1⟩ := inScratch_iff.1 ha
    exact inScratch_eq_false_iff.2 (by omega)
  · exact h.input_not_inScratch ha (by omega) hhi

theorem CallOpen.ringReads_not_output (ha : RingReads s.params s.cfg a) :
    s.cfg.outputRegion.has a = false := by
  rcases ha with ha | ha
  · have hd := h.config.disjoint
    rw [Cfg.regionsDisjoint, Bool.and_eq_true] at hd
    rw [← Bool.not_eq_true]
    intro hout
    cases (Region.not_has_of_disjoint hd.1 hout).symm.trans (h.scratch_has_of_ring ha)
  · exact (h.input_apart ha).1

/-! ### Samples in their slots (41_circular_buffer.md R194, R197) -/

theorem CallOpen.sample_lt_slotElems {u : Int} (hu : 0 ≤ u ∧ u < s.cfg.axes.line) :
    0 ≤ u ∧ u < s.cfg.entryBytes / s.cfg.precision.esIn := by
  have hu1 := (h.sample_offset hu).2
  refine ⟨hu.1, ?_⟩
  rw [← Int.add_one_le_iff, Int.le_ediv_iff_mul_le s.cfg.precision.esIn_pos, add_mul, one_mul]
  exact hu1

theorem CallOpen.slot_bounds (nn : Int) : 0 ≤ nn % s.book.cbCap.toInt ∧
    nn % s.book.cbCap.toInt < s.cfg.ringCapacity s.params := by
  have hcap := h.plan.cap.2
  rw [h.layout.cap]
  exact ⟨Int.emod_nonneg _ hcap.ne', Int.emod_lt_of_pos _ hcap⟩

/-- Two samples of the ring are one or lie apart. -/
theorem CallOpen.samples_apart {k u k' u' : Int} (hk : 0 ≤ k ∧ k < s.cfg.ringCapacity s.params)
    (hu : 0 ≤ u ∧ u < s.cfg.axes.line) (hk' : 0 ≤ k' ∧ k' < s.cfg.ringCapacity s.params)
    (hu' : 0 ≤ u' ∧ u' < s.cfg.axes.line) :
    (k = k' ∧ u = u') ∨
      (s.slotByte k (u * s.cfg.precision.esIn) : Int) + s.cfg.precision.esIn ≤
        s.slotByte k' (u' * s.cfg.precision.esIn) ∨
      (s.slotByte k' (u' * s.cfg.precision.esIn) : Int) + s.cfg.precision.esIn ≤
        s.slotByte k (u * s.cfg.precision.esIn) := by
  have hw := h.sample_lt_slotElems hu
  have hw' := h.sample_lt_slotElems hu'
  obtain ⟨ha, -⟩ := h.slotElem_addr hk hw
  obtain ⟨ha', -⟩ := h.slotElem_addr hk' hw'
  rcases grid_apart (q := k * (s.cfg.entryBytes / s.cfg.precision.esIn) + u)
    (q' := k' * (s.cfg.entryBytes / s.cfg.precision.esIn) + u') s.cfg.precision.esIn_pos.le with hq | hq | hq
  · exact .inl (grid_index_inj hw hw' hq)
  · exact .inr (.inl (by omega))
  · exact .inr (.inr (by omega))

/-- A sample of the ring loads alike from memories that agree on the ring. -/
theorem CallOpen.load_sample_of_keeps {m : Memory} (hm : KeepsRing s m) (nn : Int) {u : Int}
    (hu : 0 ≤ u ∧ u < s.cfg.axes.line) :
    m.load (s.slotByte (nn % s.book.cbCap.toInt) (u * s.cfg.precision.esIn)) s.cfg.precision.tIn =
      s.windowSample nn u := by
  have hsize : (s.cfg.precision.tIn.size : Int) = s.cfg.precision.esIn := rfl
  obtain ⟨-, h0, h1⟩ := h.slotElem_addr (h.slot_bounds nn) (h.sample_lt_slotElems hu)
  have hspace := h.offsets_le.1
  exact load_eq_of_read_eq (by omega) fun x hx0 hx1 => hm x (.inl (inScratch_iff.2 ⟨by omega, by omega⟩))

end

/-! ### What CB_FEED leaves in the ring (41_circular_buffer.md R194) -/

/-- Two numbers less than the modulus apart with one remainder are equal. -/
theorem eq_of_emod_eq {a b k : Int} (hle : a ≤ b) (hlt : b - a < k) (h : a % k = b % k) : a = b := by
  have h0 := Int.emod_eq_emod_iff_emod_sub_eq_zero.1 h.symm
  rw [Int.emod_eq_of_lt (by omega) hlt] at h0
  omega

/-- A doubly indexed list cut before row k. -/
theorem grid_split {α : Type} (f : Int → Int → α) {a k : Int} (b : Int) (hk : 0 ≤ k ∧ k ≤ a) :
    ∃ l l', ((List.range a.toNat).flatMap fun i : Nat => (List.range b.toNat).map fun j : Nat => f i j) =
        l ++ l' ∧
      ∀ x, x ∈ l' ↔ ∃ i j : Int, (k ≤ i ∧ i < a) ∧ (0 ≤ j ∧ j < b) ∧ x = f i j := by
  rw [show a.toNat = k.toNat + (a - k).toNat by omega, List.range_add, List.flatMap_append]
  refine ⟨_, _, rfl, fun x => ?_⟩
  simp only [List.mem_flatMap, List.mem_map, List.mem_range]
  constructor
  · rintro ⟨_, ⟨i, hi, rfl⟩, j, hj, rfl⟩
    exact ⟨_, j, ⟨by omega, by omega⟩, ⟨by omega, by omega⟩, rfl⟩
  · rintro ⟨i, j, hi, hj, rfl⟩
    refine ⟨i.toNat, ⟨(i - k).toNat, by omega, by omega⟩, j.toNat, by omega, ?_⟩
    rw [Int.toNat_of_nonneg (by omega : 0 ≤ i), Int.toNat_of_nonneg hj.1]

/-- The store of sample u of the i-th appended entry. -/
def feedStore (s : State) (i u : Int) : Store :=
  elemStore (s.slotByte (s.feedSlot i) (u * s.cfg.precision.esIn)) s.cfg.precision.tIn
    (ringSample s.cfg s.mem s.ctx.ic.toInt (s.feedCoord i) u)

/-- The stores of CB_FEED, cut before the i-th appended entry. -/
theorem cbFeedStores_split {n : Nat} {s : State} {i : Int} (hi : 0 ≤ i ∧ i ≤ s.feedCount n) :
    ∃ l l', cbFeedStores n s = l ++ l' ∧ ∀ st, st ∈ l' ↔
      ∃ i' u : Int, (i ≤ i' ∧ i' < s.feedCount n) ∧ (0 ≤ u ∧ u < s.book.cbLine.toInt) ∧ st = feedStore s i' u :=
  grid_split (feedStore s) s.book.cbLine.toInt hi

section
variable {n : Nat} {s : State}

/-- The window that CB_FEED leaves (41_circular_buffer.md R194). -/
theorem feedRing_window (hring : RingConsistent s) (feed : FeedFacts n s)
    (hspan : s.cfg.axes.subEntries s.ctx.res.toInt ≤ Config.countMax) :
    (feedRing n s).book.cbFed.toInt = s.book.cbFed.toInt + s.feedCount n ∧
      (feedRing n s).oldestEntry = s.feedKeepFrom n := by
  obtain ⟨hstart, hneed, hinside, hcap⟩ := feed
  obtain ⟨hv0, hv1, hv2⟩ := hring.valid
  have hfed := hring.fed
  have hcapmax := toInt_le_countMax s.book.cbCap
  have hcount : s.book.cbFed.toInt + s.feedCount n =
      max s.book.cbFed.toInt (s.tileStart + s.tileNeed n) := by
    unfold State.feedCount
    omega
  have hfedCount : IsCount (s.book.cbFed.toInt + s.feedCount n) := ⟨by omega, by omega⟩
  have hvalid : IsCount (s.book.cbFed.toInt + s.feedCount n - s.feedKeepFrom n) := by
    unfold State.feedKeepFrom State.oldestEntry
    exact ⟨by omega, by omega⟩
  have hfed' : (feedRing n s).book.cbFed.toInt = s.book.cbFed.toInt + s.feedCount n :=
    toInt_ofInt_of_isCount hfedCount
  refine ⟨hfed', ?_⟩
  rw [State.oldestEntry, hfed', feedRing_book_cbValid, toInt_ofInt_of_isCount hvalid]
  omega

/-- The i-th appended entry goes to the slot of its number (41_circular_buffer.md R197). -/
theorem feedSlot_eq (hring : RingConsistent s) (i : Int) :
    s.feedSlot i = (s.book.cbFed.toInt + i) % s.book.cbCap.toInt := by
  rw [State.feedSlot, hring.cursor, Int.emod_add_emod]

variable (h : CallOpen s) (hring : RingConsistent s)
include h hring

/-- The store of a sample of an appended entry less than a ring's length away in number from entry nn: it is
that very sample of entry nn, or it lies apart. -/
theorem CallOpen.feedStore_apart {nn u i u' : Int}
    (hnear : |s.book.cbFed.toInt + i - nn| < s.book.cbCap.toInt) (hu : 0 ≤ u ∧ u < s.cfg.axes.line)
    (hu' : 0 ≤ u' ∧ u' < s.cfg.axes.line) :
    (s.book.cbFed.toInt + i = nn ∧ u' = u) ∨
      ((feedStore s i u').addr : Int) + (feedStore s i u').len ≤
        s.slotByte (nn % s.book.cbCap.toInt) (u * s.cfg.precision.esIn) ∨
      (s.slotByte (nn % s.book.cbCap.toInt) (u * s.cfg.precision.esIn) : Int) + s.cfg.precision.tIn.size ≤
        (feedStore s i u').addr := by
  rw [feedStore, elemStore_addr, elemStore_len, feedSlot_eq hring]
  obtain ⟨hnear0, hnear1⟩ := abs_lt.1 hnear
  refine (h.samples_apart (h.slot_bounds _) hu' (h.slot_bounds nn) hu).imp_left fun ⟨hslot, hpos⟩ => ⟨?_, hpos⟩
  rcases le_total (s.book.cbFed.toInt + i) nn with hle | hle
  · exact eq_of_emod_eq hle (by omega) hslot
  · exact (eq_of_emod_eq hle (by omega) hslot.symm).symm

/-- An entry that stays resident keeps its samples. -/
theorem CallOpen.load_cbFeedStores_kept {nn u : Int} (hnn : nn < s.book.cbFed.toInt)
    (hkeep : s.book.cbFed.toInt + s.feedCount n - s.book.cbCap.toInt ≤ nn)
    (hu : 0 ≤ u ∧ u < s.cfg.axes.line) :
    (s.mem.applyStores (cbFeedStores n s)).load
        (s.slotByte (nn % s.book.cbCap.toInt) (u * s.cfg.precision.esIn)) s.cfg.precision.tIn =
      s.windowSample nn u := by
  have hsize : (s.cfg.precision.tIn.size : Int) = s.cfg.precision.esIn := rfl
  obtain ⟨-, -, h1⟩ := h.slotElem_addr (h.slot_bounds nn) (h.sample_lt_slotElems hu)
  have hspace := h.offsets_le.1
  refine (h.cbFeedStores_in n).load_apart hspace (by omega) fun st hst => ?_
  obtain ⟨i, u', hi, hu', rfl⟩ := mem_cbFeedStores.1 hst
  rw [h.layout.line] at hu'
  refine (h.feedStore_apart hring (abs_lt.2 ⟨by omega, by omega⟩) hu hu').resolve_left fun hsame => ?_
  omega

/-- An entry appended by CB_FEED and kept holds its samples: the entries appended after it are less than a
ring's length away, so they go to other slots. -/
theorem CallOpen.load_cbFeedStores_new {nn u : Int}
    (hnn : s.book.cbFed.toInt ≤ nn ∧ nn < s.book.cbFed.toInt + s.feedCount n)
    (hkeep : s.book.cbFed.toInt + s.feedCount n - s.book.cbCap.toInt ≤ nn)
    (hu : 0 ≤ u ∧ u < s.cfg.axes.line) :
    (s.mem.applyStores (cbFeedStores n s)).load
        (s.slotByte (nn % s.book.cbCap.toInt) (u * s.cfg.precision.esIn)) s.cfg.precision.tIn =
      ringSample s.cfg s.mem s.ctx.ic.toInt (s.cfg.axes.entryCoord s.ctx.res.toInt nn) u := by
  obtain ⟨i, rfl⟩ : ∃ i, nn = s.book.cbFed.toInt + i := ⟨nn - s.book.cbFed.toInt, by omega⟩
  obtain ⟨l, l', hsplit, hmem⟩ := cbFeedStores_split (n := n) (s := s) (i := i) ⟨by omega, by omega⟩
  have hin : StoresIn l' (s.cfg.scratchPtr.toNat + Cfg.offCb s.params)
      (s.cfg.scratchPtr.toNat + s.cfg.offKs s.params) := fun st hst =>
    h.cbFeedStores_in n st (by rw [hsplit]; exact List.mem_append_right l hst)
  rw [hsplit, applyStores_append]
  refine hin.load_mem h.offsets_le.1 ?_ (h.config.ringSample_holds _ _ _ _) fun st hst => ?_
  · rw [← feedSlot_eq hring]
    exact (hmem _).2 ⟨i, u, ⟨le_rfl, by omega⟩, by rwa [h.layout.line], rfl⟩
  · obtain ⟨i', u', hi', hu', rfl⟩ := (hmem st).1 hst
    rw [h.layout.line] at hu'
    refine (h.feedStore_apart hring (abs_lt.2 ⟨by omega, by omega⟩) hu hu').imp_left fun ⟨hi', hu'⟩ => ?_
    obtain rfl : i' = i := by omega
    rw [hu']
    exact ⟨by rw [feedStore, elemStore_addr, feedSlot_eq hring], rfl⟩

end

/-! ### The ring's contents as an invariant (41_circular_buffer.md R197) -/

/-- The invariant together with what CB_STATE promises about the ring. -/
structure FilledRing (s : State) : Prop where
  /-- The machine's invariant. -/
  inv : Inv s
  /-- Every resident entry stands in its slot. -/
  holds : s.status.cbState ≠ .uninitialized → RingHolds s

/-- The registers that say what the ring holds, and where, are the same. -/
structure SameRing (s t : State) : Prop where
  /-- The CFG registers. -/
  cfg : t.cfg = s.cfg
  /-- `CTX_IC` and `CTX_RES` -/
  context : t.ctx.ic = s.ctx.ic ∧ t.ctx.res = s.ctx.res
  /-- The place of the ring. -/
  place : t.book.layCb = s.book.layCb ∧ t.book.cbEntryBytes = s.book.cbEntryBytes ∧
    t.book.cbCap = s.book.cbCap
  /-- The window. -/
  window : t.book.cbFed = s.book.cbFed ∧ t.book.cbValid = s.book.cbValid

section
variable {s t : State}

/-- What leaves the ring, the input and the registers that name them alone keeps the ring's contents. -/
theorem FilledRing.frame (h : FilledRing s) (hinv : Inv t)
    (hst : t.status.cbState ≠ .uninitialized → s.status.cbState ≠ .uninitialized) (hsame : SameRing s t)
    (hm : t.status.cbState ≠ .uninitialized → KeepsRing s t.mem) : FilledRing t where
  inv := hinv
  holds ht nn u hnn0 hnn1 hu0 hu1 := by
    obtain ⟨hc, ⟨hic, hres⟩, ⟨hcb, heb, hcap⟩, hfed, hvalid⟩ := hsame
    have hopen := h.inv.callOpen_of_ring (hst ht)
    have hold : t.oldestEntry = s.oldestEntry := by rw [State.oldestEntry, hfed, hvalid]; rfl
    rw [hold] at hnn0
    rw [hfed] at hnn1
    rw [hc] at hu1
    have hload : t.windowSample nn u = s.windowSample nn u := by
      rw [← hopen.load_sample_of_keeps (hm ht) nn ⟨hu0, hu1⟩]
      simp only [State.windowSample, State.slotByte, hc, hcb, heb, hcap]
    rw [hload, h.holds (hst ht) nn u hnn0 hnn1 hu0 hu1, hc, hic, hres]
    exact (hopen.config.ringSample_congr (fun a ha => hm ht a (.inr ha)) (h.inv.ring (hst ht)).channel
      _ u).symm

/-- With CB_STATE 0 nothing is promised. -/
theorem FilledRing.of_uninitialized (hinv : Inv t) (ht : t.status.cbState = .uninitialized) :
    FilledRing t := ⟨hinv, fun hne => absurd ht hne⟩

/-- A change of registers that leaves memory alone. -/
theorem FilledRing.sameMem (h : FilledRing s) (hinv : Inv t)
    (hst : t.status.cbState ≠ .uninitialized → s.status.cbState ≠ .uninitialized) (hsame : SameRing s t)
    (hm : t.mem = s.mem) : FilledRing t :=
  h.frame hinv hst hsame fun _ a _ => by rw [hm]

/-- A command whose footprint is apart from the ring and the input. -/
theorem FilledRing.writesElsewhere (h : FilledRing s) {i : Instr} (hready : CommandReady i s)
    (hst : (commandEffect i s).status.cbState = s.status.cbState) (hsame : SameRing s (commandEffect i s))
    (hi : CallOpen s → ∀ a, RingReads s.params s.cfg a → commandWrites i s.params s.cfg a = false) :
    FilledRing (commandEffect i s) :=
  h.frame (h.inv.command hready) hst.symm.trans_ne hsame fun ht a ha =>
    h.inv.read_commandEffect hready (hi (h.inv.callOpen_of_ring (hst.symm.trans_ne ht)) a ha)

/-- After CB_INIT no entry is resident. -/
theorem FilledRing.primes (h : FilledRing s) (hpre : cbInitPre s = none) : FilledRing (initRing s) where
  inv := h.inv.primes hpre
  holds _ _ _ h0 h1 _ _ := absurd h1 (not_lt.2 h0)

/-- After CB_FEED an entry of the window is one that was resident and is not overwritten, or a new one. -/
theorem FilledRing.feeds (h : FilledRing s) {n : Nat} (hpre : cbFeedPre n s = none) :
    FilledRing (feedRing n s) where
  inv := h.inv.feeds hpre
  holds _ nn u h0 h1 hu0 hu1 := by
    obtain ⟨-, hst, hn, hplace⟩ := (cbFeedPre_eq_none n s).1 hpre
    have hopen := h.inv.callOpen_of_ring hst
    have hring := h.inv.ring hst
    obtain ⟨o0, o1, o2, o3⟩ := hopen.offsets_order
    obtain ⟨hfed, hold⟩ := feedRing_window hring (h.inv.feedFacts hst hn hplace)
      (h.inv.subEntries_le_countMax hst)
    rw [hold, State.feedKeepFrom] at h0
    rw [hfed] at h1
    have hsample : ringSample s.cfg (feedRing n s).mem s.ctx.ic.toInt
        (s.cfg.axes.entryCoord s.ctx.res.toInt nn) u =
        ringSample s.cfg s.mem s.ctx.ic.toInt (s.cfg.axes.entryCoord s.ctx.res.toInt nn) u :=
      hopen.config.ringSample_congr (fun a ha => hopen.read_feedRing (n := n)
        (hopen.input_not_inScratch ha o0 (by omega))) hring.channel _ u
    refine Eq.trans ?_ hsample.symm
    rcases lt_or_ge nn s.book.cbFed.toInt with hlt | hge
    · exact (hopen.load_cbFeedStores_kept hring hlt (by omega) ⟨hu0, hu1⟩).trans
        (h.holds hst nn u (by omega) hlt hu0 hu1)
    · exact hopen.load_cbFeedStores_new hring ⟨hge, h1⟩ (by omega) ⟨hu0, hu1⟩

/-! ### Every move keeps the ring's contents -/

theorem FilledRing.command (h : FilledRing s) {i : Instr} (hready : CommandReady i s) :
    FilledRing (commandEffect i s) := by
  have hinv := h.inv.command hready
  cases i with
  | nop => exact h
  | getsize => exact h
  | callBegin => exact .of_uninitialized hinv rfl
  | callEnd => exact .of_uninitialized hinv rfl
  | conv => exact .of_uninitialized hinv (by rw [commandEffect, convolve_status_closed]; rfl)
  | decomp => exact h.sameMem hinv id ⟨rfl, ⟨rfl, rfl⟩, ⟨rfl, rfl, rfl⟩, rfl, rfl⟩ rfl
  | cbInit => exact h.primes hready
  | cbFeed n => exact h.feeds hready
  | ksClear =>
    refine h.writesElsewhere hready rfl ⟨rfl, ⟨rfl, rfl⟩, ⟨rfl, rfl, rfl⟩, rfl, rfl⟩ fun hopen a ha => ?_
    exact hopen.ringReads_not_inScratch ha le_rfl hopen.offsets_order.2.2.2.le
  | kstage =>
    refine h.writesElsewhere hready rfl ⟨rfl, ⟨rfl, rfl⟩, ⟨rfl, rfl, rfl⟩, rfl, rfl⟩ fun hopen a ha => ?_
    exact hopen.ringReads_not_inScratch ha le_rfl hopen.offsets_order.2.2.2.le
  | macTile n =>
    refine h.writesElsewhere hready rfl ⟨rfl, ⟨rfl, rfl⟩, ⟨rfl, rfl, rfl⟩, rfl, rfl⟩ fun hopen a ha => ?_
    exact hopen.ringReads_not_inScratch ha hopen.offsets_order.2.2.1.le le_rfl
  | reqWrite =>
    exact h.writesElsewhere hready rfl ⟨rfl, ⟨rfl, rfl⟩, ⟨rfl, rfl, rfl⟩, rfl, rfl⟩
      fun hopen a ha => hopen.ringReads_not_output ha

theorem FilledRing.moves (h : FilledRing s) (hmove : Moves s t) : FilledRing t := by
  have hinv := h.inv.moves hmove
  cases hmove with
  | idle => exact h
  | writeIc w => exact .of_uninitialized hinv rfl
  | writeM w => exact h.sameMem hinv id ⟨rfl, ⟨rfl, rfl⟩, ⟨rfl, rfl, rfl⟩, rfl, rfl⟩ rfl
  | writeRes w => exact .of_uninitialized hinv rfl
  | writeJ0 w => exact h.sameMem hinv id ⟨rfl, ⟨rfl, rfl⟩, ⟨rfl, rfl, rfl⟩, rfl, rfl⟩ rfl
  | writeCfg c => exact .of_uninitialized hinv rfl
  | hostStore addr bytes _ hfree =>
    refine h.frame hinv id ⟨rfl, ⟨rfl, rfl⟩, ⟨rfl, rfl, rfl⟩, rfl, rfl⟩ fun ht a ha => ?_
    have ho := h.inv.flags.dec (h.inv.flags.ring ht)
    exact read_writeBytes_of_owned hfree ((h.inv.callOpen ho).ringReads_owned ho ha)
  | reset => exact .of_uninitialized hinv rfl
  | close => exact .of_uninitialized hinv rfl
  | dropAcc => exact h.sameMem hinv id ⟨rfl, ⟨rfl, rfl⟩, ⟨rfl, rfl, rfl⟩, rfl, rfl⟩ rfl
  | command i hready => exact h.command hready

theorem FilledRing.of_sameEngine (h : FilledRing s) (ht : SameEngine s t) : FilledRing t := by
  have hinv := h.inv.of_sameEngine ht
  obtain ⟨-, hc, hx, hb, hm, hst⟩ := ht
  refine h.sameMem hinv (by rw [hst]; exact id) ⟨hc, ?_, ?_, ?_⟩ hm
  · rw [hx]; exact ⟨rfl, rfl⟩
  · rw [hb]; exact ⟨rfl, rfl, rfl⟩
  · rw [hb]; exact ⟨rfl, rfl⟩

end

/-- Settles O35: every move of the engine keeps the ring's contents with the invariant. -/
theorem stepKeepsRingContents : Obligations.StepKeepsRingContents := by
  intro s t hinv hholds hstep
  have h : FilledRing t := step_keeps (fun _ _ hsame hs => hs.of_sameEngine hsame)
    (fun _ _ hs => hs.moves) ⟨hinv, hholds⟩ hstep
  exact h.holds

end Sys2Proof.Machine

/-! SUPPORT. The proofs of the family 30_encoding about the command word (O1 to O4): a word is its three fields,
and the decoder, the encoder and the rows of the opcode map are each stated once as conditions on the fields. -/

namespace Sys2Proof

/-! ### The fields of a command word (30_encoding.md R141) -/

theorem word_eq_append_fields (w : Word) :
    w.extractLsb' 16 16 ++ w.extractLsb' 8 8 ++ w.extractLsb' 0 8 = w := by
  rw [BitVec.extractLsb'_append_extractLsb'_eq_extractLsb' (start₂ := 16) (len₁ := 8) rfl]
  rw [BitVec.extractLsb'_append_extractLsb'_eq_extractLsb' (start₂ := 8) (len₁ := 8) rfl]
  exact BitVec.extractLsb'_eq_self

theorem word_ext_fields {v w : Word} (hrsv : reservedField v = reservedField w)
    (hn : operandField v = operandField w) (hopc : opcField v = opcField w) : v = w := by
  rw [← word_eq_append_fields v, ← word_eq_append_fields w, BitVec.eq_of_toNat_eq hrsv,
    BitVec.eq_of_toNat_eq hn, BitVec.eq_of_toNat_eq hopc]

theorem operandField_lt (w : Word) : operandField w < 256 := (w.extractLsb' 8 8).isLt

theorem opcode_lt (i : Instr) : opcode i < 256 := by
  cases i <;> simp only [opcode] <;> decide

theorem wellFormed_iff (i : Instr) : wellFormed i = true ↔ operandOf i < 256 := by
  cases i <;> simp [wellFormed, operandFits, operandOf]

@[simp] theorem reservedField_encode (i : Instr) : reservedField (encode i) = 0 := by
  rw [reservedField, encode, BitVec.extractLsb'_append_eq_of_le (by decide),
    BitVec.extractLsb'_append_eq_of_le (by decide)]
  rfl

theorem operandField_encode {i : Instr} (h : wellFormed i = true) :
    operandField (encode i) = operandOf i := by
  rw [operandField, encode, BitVec.extractLsb'_append_eq_of_le (by decide),
    BitVec.extractLsb'_append_eq_right, BitVec.toNat_ofNat]
  exact Nat.mod_eq_of_lt ((wellFormed_iff i).1 h)

@[simp] theorem opcField_encode (i : Instr) : opcField (encode i) = opcode i := by
  rw [opcField, encode, BitVec.extractLsb'_append_eq_right, BitVec.toNat_ofNat]
  exact Nat.mod_eq_of_lt (opcode_lt i)

/-! ### The decoder (30_encoding.md R143, R144) -/

theorem decodePlain_eq_ok_iff (n : Nat) (i j : Instr) : decodePlain n i = .ok j ↔ n = 0 ∧ i = j := by
  unfold decodePlain
  split <;> simp [*]

theorem fields_of_decode {w : Word} {i : Instr} (h : decode w = .ok i) :
    reservedField w = 0 ∧ opcField w = opcode i ∧ operandField w = operandOf i := by
  unfold decode at h
  split at h
  · cases h
  next hrsv =>
    refine ⟨not_not.1 hrsv, ?_⟩
    split at h
    case h_8 hopc => cases h; exact ⟨hopc, rfl⟩
    case h_11 hopc => cases h; exact ⟨hopc, rfl⟩
    case h_13 => cases h
    all_goals
      obtain ⟨hn, rfl⟩ := (decodePlain_eq_ok_iff _ _ _).1 h
      exact ⟨by assumption, hn⟩

theorem decode_of_fields {w : Word} {i : Instr} (hrsv : reservedField w = 0)
    (hopc : opcField w = opcode i) (hn : operandField w = operandOf i) : decode w = .ok i := by
  rw [decode, if_neg (not_not.2 hrsv), hopc, hn]
  cases i <;> rfl

/-- The decoder reads a command exactly from the word {RSV = 0, N, OPC} of that command. -/
theorem decode_eq_ok_iff (w : Word) (i : Instr) :
    decode w = .ok i ↔ reservedField w = 0 ∧ opcField w = opcode i ∧ operandField w = operandOf i :=
  ⟨fields_of_decode, fun ⟨hrsv, hopc, hn⟩ => decode_of_fields hrsv hopc hn⟩

theorem wellFormed_of_decode {w : Word} {i : Instr} (h : decode w = .ok i) : wellFormed i = true := by
  obtain ⟨-, -, hn⟩ := fields_of_decode h
  rw [wellFormed_iff, ← hn]
  exact operandField_lt w

theorem encode_of_decode {w : Word} {i : Instr} (h : decode w = .ok i) : encode i = w := by
  obtain ⟨hrsv, hopc, hn⟩ := fields_of_decode h
  apply word_ext_fields
  · rw [reservedField_encode, hrsv]
  · rw [operandField_encode (wellFormed_of_decode h), hn]
  · rw [opcField_encode, hopc]

/-- Settles O1: the fields of the encoding are the command's opcode and operand. -/
theorem decodeOfEncode : Obligations.DecodeOfEncode := by
  intro i hwf
  exact decode_of_fields (reservedField_encode i) (opcField_encode i) (operandField_encode hwf)

/-! ### The rows of the opcode map (30_encoding.md R143) -/

/-- The two commands whose row leaves the field N free (30_encoding.md R142). -/
def takesOperand (i : Instr) : Bool :=
  match i with
  | .cbFeed _ => true
  | .macTile _ => true
  | _ => false

theorem takesOperand_iff_opcode (i : Instr) : takesOperand i = true ↔ opcode i ∈ [0x11, 0x20] := by
  cases i <;> simp [takesOperand, opcode]

theorem rowMask_eq (i : Instr) :
    rowMask i = if takesOperand i then 0xFFFF00FF else 0xFFFFFFFF := by
  cases i <;> rfl

theorem reservedField_and_rowMask (w : Word) (i : Instr) :
    reservedField (w &&& rowMask i) = reservedField w := by
  have hmask : (rowMask i).extractLsb' 16 16 = BitVec.allOnes 16 := by
    rw [rowMask_eq]
    split <;> decide
  rw [reservedField, BitVec.extractLsb'_and, hmask, BitVec.and_allOnes, reservedField]

theorem opcField_and_rowMask (w : Word) (i : Instr) : opcField (w &&& rowMask i) = opcField w := by
  have hmask : (rowMask i).extractLsb' 0 8 = BitVec.allOnes 8 := by
    rw [rowMask_eq]
    split <;> decide
  rw [opcField, BitVec.extractLsb'_and, hmask, BitVec.and_allOnes, opcField]

theorem operandField_and_rowMask (w : Word) (i : Instr) :
    operandField (w &&& rowMask i) = if takesOperand i then 0 else operandField w := by
  have hmask : (rowMask i).extractLsb' 8 8 = if takesOperand i then 0#8 else BitVec.allOnes 8 := by
    rw [rowMask_eq]
    split <;> decide
  rw [operandField, BitVec.extractLsb'_and, hmask]
  split
  · rw [BitVec.and_zero]; rfl
  · rw [BitVec.and_allOnes, operandField]

theorem fields_rowMatch (i : Instr) :
    reservedField (rowMatch i) = 0 ∧ opcField (rowMatch i) = opcode i ∧ operandField (rowMatch i) = 0 := by
  have hlt := opcode_lt i
  simp only [reservedField, opcField, operandField, rowMatch, BitVec.extractLsb'_toNat, BitVec.toNat_ofNat,
    Nat.shiftRight_eq_div_pow]
  omega

/-- A word lies in a command's row when its fields do; the field N is free in the rows with an operand. -/
theorem matchesRow_iff (w : Word) (i : Instr) :
    w &&& rowMask i = rowMatch i ↔
      reservedField w = 0 ∧ opcField w = opcode i ∧ (takesOperand i = true ∨ operandField w = 0) := by
  obtain ⟨hrsv, hopc, hn⟩ := fields_rowMatch i
  have hoperand : operandField (w &&& rowMask i) = 0 ↔ takesOperand i = true ∨ operandField w = 0 := by
    rw [operandField_and_rowMask]
    split <;> simp [*]
  rw [← hoperand]
  constructor
  · intro h
    rw [← reservedField_and_rowMask w i, ← opcField_and_rowMask w i, h]
    exact ⟨hrsv, hopc, hn⟩
  · rintro ⟨hrsv', hopc', hn'⟩
    apply word_ext_fields
    · rw [reservedField_and_rowMask, hrsv', hrsv]
    · rw [hn', hn]
    · rw [opcField_and_rowMask, hopc', hopc]

theorem eq_operandOf_iff (n : Nat) (i : Instr) :
    n = operandOf i ↔
      (takesOperand i = true ∨ n = 0) ∧ ∀ k, i = .cbFeed k ∨ i = .macTile k → k = n := by
  cases i <;> simp [operandOf, takesOperand, eq_comm]

/-- Settles O2: both sides say the same of the fields of the word. -/
theorem decodeIffOpcodeRow : Obligations.DecodeIffOpcodeRow := by
  intro w i
  refine ⟨?_, fun h => ⟨wellFormed_of_decode h, encode_of_decode h⟩⟩
  rw [decode_eq_ok_iff, matchesRow_iff, eq_operandOf_iff, and_assoc, and_assoc]
  rfl

/-! ### Illegal words (30_encoding.md R144) -/

theorem mem_opcodes_iff (k : Nat) :
    k ∈ [0x00, 0x01, 0x02, 0x03, 0x04, 0x08, 0x10, 0x11, 0x18, 0x19, 0x20, 0x28] ↔
      ∃ i, opcode i = k := by
  constructor
  · intro h
    simp only [List.mem_cons, List.not_mem_nil, or_false] at h
    rcases h with rfl | rfl | rfl | rfl | rfl | rfl | rfl | rfl | rfl | rfl | rfl | rfl
    exacts [⟨.nop, rfl⟩, ⟨.getsize, rfl⟩, ⟨.callBegin, rfl⟩, ⟨.callEnd, rfl⟩, ⟨.conv, rfl⟩,
      ⟨.decomp, rfl⟩, ⟨.cbInit, rfl⟩, ⟨.cbFeed 0, rfl⟩, ⟨.ksClear, rfl⟩, ⟨.kstage, rfl⟩,
      ⟨.macTile 0, rfl⟩, ⟨.reqWrite, rfl⟩]
  · rintro ⟨i, rfl⟩
    cases i <;> simp [opcode]

theorem matchesSomeRow_iff (w : Word) :
    (∃ i, w &&& rowMask i = rowMatch i) ↔
      reservedField w = 0 ∧ (∃ i, opcode i = opcField w) ∧
        (opcField w ∈ [0x11, 0x20] ∨ operandField w = 0) := by
  simp only [matchesRow_iff, takesOperand_iff_opcode]
  constructor
  · rintro ⟨i, hrsv, hopc, hn⟩
    exact ⟨hrsv, ⟨i, hopc.symm⟩, hopc ▸ hn⟩
  · rintro ⟨hrsv, ⟨i, hopc⟩, hn⟩
    exact ⟨i, hrsv, hopc.symm, hopc ▸ hn⟩

theorem illegal_iff (w : Word) :
    (∀ i, w &&& rowMask i ≠ rowMatch i) ↔
      (opcField w ∉ [0x00, 0x01, 0x02, 0x03, 0x04, 0x08, 0x10, 0x11, 0x18, 0x19, 0x20, 0x28] ∨
        reservedField w ≠ 0 ∨ (operandField w ≠ 0 ∧ opcField w ∉ [0x11, 0x20])) := by
  rw [← not_exists, matchesSomeRow_iff, mem_opcodes_iff]
  tauto

theorem decode_of_illegal {w : Word} (h : ∀ i, w &&& rowMask i ≠ rowMatch i) : ∃ e, decode w = .error e := by
  cases hd : decode w with
  | error e => exact ⟨e, rfl⟩
  | ok i => exact absurd ((decodeIffOpcodeRow w i).1.1 hd).1 (h i)

end Sys2Proof

namespace Sys2Proof.Machine

theorem regWrite_of_decode_error {w : Word} {e : DecodeError} (h : decode w = .error e) (s : State) :
    regWrite 0x01 w s = .next (s.raiseErr { cause := .command, info := w.toNat % 2 ^ 16 }) := by
  simp only [regWrite, runCommandWord, h, if_true]

/-- Settles O3: the negation of `matchesSomeRow_iff`, and the command error of a word that does not decode. -/
theorem illegalWordRaisesCmdError : Obligations.IllegalWordRaisesCmdError := by
  intro w
  refine ⟨illegal_iff w, fun hillegal s => ?_⟩
  obtain ⟨e, hdecode⟩ := decode_of_illegal hillegal
  rw [regWrite_of_decode_error hdecode, BitVec.extractLsb'_toNat, Nat.shiftRight_zero]
  rfl

/-- Settles O4: the decoder on the printed words, and the command error of those that do not decode. -/
theorem workedEncodings : Obligations.WorkedEncodings := by
  refine ⟨decode_getsize_word, decode_cb_feed_word, decode_mac_tile_word, decode_req_write_word, fun s => ?_⟩
  have hoperand : decode 0x00000128 = .error .operandNotAllowed := by decide
  have hreserved : decode 0x00010004 = .error .reservedBits := by decide
  have hopcode : decode 0x00000005 = .error .unknownOpcode := by decide
  exact ⟨regWrite_of_decode_error hoperand s, regWrite_of_decode_error hreserved s,
    regWrite_of_decode_error hopcode s⟩

end Sys2Proof.Machine

/-! SUPPORT. The proof of the family 30_encoding about the interlocks (O20): the preconditions of each command of
an open call as one chain of tests, and the error of the first that fails. -/

namespace Sys2Proof.Machine

/-! ### The preconditions as chains of tests (46_conv_sequencer.md R362) -/

theorem needOpen_eq (st : Status) :
    needOpen st = if st.callOpen = true then none else some { cause := .sequence, info := 1 } := rfl

section
variable (s : State) (n : Nat)

theorem cbInitPre_eq :
    cbInitPre s =
      if ¬s.status.callOpen = true then some { cause := .sequence, info := 1 }
      else if ¬s.status.decValid = true then some { cause := .sequence, info := 2 }
      else if ¬(0 ≤ s.ctx.ic.toInt ∧ s.ctx.ic.toInt < s.cfg.inC.toInt) then
        some { cause := .context, info := 0x30 }
      else if ¬(0 ≤ s.ctx.res.toInt ∧ s.ctx.res.toInt < s.book.decCount.toInt) then
        some { cause := .context, info := 0x32 }
      else none := by
  simp only [cbInitPre, needOpen, needDecomposition, needChannel, require, Bool.and_eq_true,
    decide_eq_true_eq, firstFailure_unless, firstFailure]

theorem cbFeedPre_eq :
    cbFeedPre n s =
      if ¬s.status.callOpen = true then some { cause := .sequence, info := 1 }
      else if ¬s.status.cbState ≠ .uninitialized then some { cause := .sequence, info := 3 }
      else if ¬(1 ≤ n ∧ n ≤ s.params.rIter) then some { cause := .context, info := 0x01 }
      else if ¬(0 ≤ s.ctx.j0.toInt ∧ s.ctx.j0.toInt + n ≤ s.book.subNout.toInt) then
        some { cause := .context, info := 0x33 }
      else none := by
  simp only [cbFeedPre, needOpen, needRing, needTileSize, needTilePlace, require, Bool.and_eq_true,
    decide_eq_true_eq, firstFailure_unless, firstFailure]

theorem kstagePre_eq :
    kstagePre s =
      if ¬s.status.callOpen = true then some { cause := .sequence, info := 1 }
      else if ¬s.status.kpadValid = true then some { cause := .sequence, info := 4 }
      else if ¬(0 ≤ s.ctx.ic.toInt ∧ s.ctx.ic.toInt < s.cfg.inC.toInt) then
        some { cause := .context, info := 0x30 }
      else if ¬(0 ≤ s.ctx.m.toInt ∧ s.ctx.m.toInt < s.cfg.chMult.toInt) then
        some { cause := .context, info := 0x31 }
      else none := by
  simp only [kstagePre, needOpen, needKernelPadding, needChannel, require, Bool.and_eq_true,
    decide_eq_true_eq, firstFailure_unless, firstFailure]

theorem macTilePre_eq :
    macTilePre n s =
      if ¬s.status.callOpen = true then some { cause := .sequence, info := 1 }
      else if ¬s.status.cbState ≠ .uninitialized then some { cause := .sequence, info := 3 }
      else if ¬s.status.ksValid = true then some { cause := .sequence, info := 5 }
      else if ¬(1 ≤ n ∧ n ≤ s.params.rIter) then some { cause := .context, info := 0x01 }
      else if ¬(0 ≤ s.ctx.j0.toInt ∧ s.ctx.j0.toInt + n ≤ s.book.subNout.toInt) then
        some { cause := .context, info := 0x33 }
      else none := by
  simp only [macTilePre, needOpen, needRing, needStagedKernel, needTileSize, needTilePlace, require,
    Bool.and_eq_true, decide_eq_true_eq, firstFailure_unless, firstFailure]

theorem reqWritePre_eq :
    reqWritePre s =
      if ¬s.status.callOpen = true then some { cause := .sequence, info := 1 }
      else if ¬s.status.accValid = true then some { cause := .sequence, info := 6 }
      else none := by
  simp only [reqWritePre, needOpen, needAccumulators, require, firstFailure_unless, firstFailure]

end

/-! ### The error of the first precondition that fails -/

/-- The error the preconditions of a command give, for the commands of an open call. -/
def commandPre (i : Instr) (s : State) : Option CmdError :=
  match i with
  | .nop => none
  | .getsize => none
  | .callBegin => none
  | .callEnd => needOpen s.status
  | .conv => none
  | .decomp => needOpen s.status
  | .cbInit => cbInitPre s
  | .cbFeed n => cbFeedPre n s
  | .ksClear => needOpen s.status
  | .kstage => kstagePre s
  | .macTile n => macTilePre n s
  | .reqWrite => reqWritePre s

section
variable {i : Instr} {s : State} {n : Nat}

theorem runCommand_of_some {pre : Option CmdError} {e : CmdError} (h : pre = some e)
    (effect : State → State) : runCommand pre effect s = .next (s.raiseErr e) := by
  rw [h, runCommand_some]

theorem exec_of_commandPre {e : CmdError} (h : commandPre i s = some e) :
    exec i s = .next (s.raiseErr e) := by
  cases i with
  | nop => cases h
  | getsize => cases h
  | callBegin => cases h
  | conv => cases h
  | macTile n =>
    change macTilePre n s = some e at h
    simp only [exec, execMacTile, h]
  | callEnd => exact runCommand_of_some h fun s => releaseScratch s.close
  | decomp => exact runCommand_of_some h _
  | cbInit => exact runCommand_of_some h _
  | cbFeed n => exact runCommand_of_some h _
  | ksClear => exact runCommand_of_some h _
  | kstage => exact runCommand_of_some h _
  | reqWrite => exact runCommand_of_some h _

theorem commandPre_of_closed (hclosed : s.status.callOpen = false)
    (hi : i = .callEnd ∨ i = .decomp ∨ i = .cbInit ∨ (∃ n, i = .cbFeed n) ∨ i = .ksClear ∨ i = .kstage ∨
      (∃ n, i = .macTile n) ∨ i = .reqWrite) :
    commandPre i s = some { cause := .sequence, info := 1 } := by
  rcases hi with rfl | rfl | rfl | ⟨n, rfl⟩ | rfl | rfl | ⟨n, rfl⟩ | rfl <;>
    simp [commandPre, needOpen_eq, cbInitPre_eq, cbFeedPre_eq, kstagePre_eq, macTilePre_eq, reqWritePre_eq,
      hclosed]

end

/-- Settles O20: each clause says which test of a command's chain is the first to fail. -/
theorem interlockTable : Obligations.InterlockTable := by
  intro s
  refine ⟨fun hclosed i hi => exec_of_commandPre (commandPre_of_closed hclosed hi), fun hopen => ?_⟩
  refine ⟨fun hdec => ?_, fun hring n => ⟨?_, ?_⟩, fun hkpad => ?_, fun hring hks n => ?_, fun hacc => ?_,
    fun hring n hn => ?_, fun hdec => ⟨fun hic => ?_, fun hic hres => ?_⟩,
    fun hkpad => ⟨fun hic => ?_, fun hic hm => ?_⟩, fun hring n hpos hle hj0 => ?_⟩
  · exact exec_of_commandPre (by simp [commandPre, cbInitPre_eq, hopen, hdec])
  · exact exec_of_commandPre (by simp [commandPre, cbFeedPre_eq, hopen, hring])
  · exact exec_of_commandPre (by simp [commandPre, macTilePre_eq, hopen, hring])
  · exact exec_of_commandPre (by simp [commandPre, kstagePre_eq, hopen, hkpad])
  · exact exec_of_commandPre (by simp [commandPre, macTilePre_eq, hopen, hring, hks])
  · exact exec_of_commandPre (by simp [commandPre, reqWritePre_eq, hopen, hacc])
  · have hsize : ¬(1 ≤ n ∧ n ≤ s.params.rIter) := by omega
    exact ⟨exec_of_commandPre (by simp [commandPre, cbFeedPre_eq, hopen, hring, hsize]),
      fun hks => exec_of_commandPre (by simp [commandPre, macTilePre_eq, hopen, hring, hks, hsize])⟩
  · exact exec_of_commandPre (by simp [commandPre, cbInitPre_eq, hopen, hdec, hic])
  · exact exec_of_commandPre (by simp [commandPre, cbInitPre_eq, hopen, hdec, hic, hres])
  · exact exec_of_commandPre (by simp [commandPre, kstagePre_eq, hopen, hkpad, hic])
  · exact exec_of_commandPre (by simp [commandPre, kstagePre_eq, hopen, hkpad, hic, hm])
  · exact ⟨exec_of_commandPre (by simp [commandPre, cbFeedPre_eq, hopen, hring, hpos, hle, hj0]),
      fun hks => exec_of_commandPre (by simp [commandPre, macTilePre_eq, hopen, hring, hks, hpos, hle, hj0])⟩

end Sys2Proof.Machine

/-! SUPPORT. The proofs of the family 40_planner: what a successful command reports (O16), the order of the
shape checks (O23), and BEGIN on a legal configuration (O26). -/

namespace Sys2Proof.Machine

/-! ### Commands that end with CAUSE 0 (60_exceptions.md R391, R392) -/

/-- The value a command reports when it succeeds (40_planner.md R171, 60_exceptions.md R392). -/
def commandValue (i : Instr) (s : State) : Int :=
  if i = .getsize then s.cfg.scratchTotal s.params else 0

/-- No cause has the code 0, so a CAUSE of 0 means success. -/
theorem raiseErr_cause_ne_zero (e : CmdError) (s : State) : (s.raiseErr e).cause ≠ 0 := by
  rw [raiseErr_cause]
  cases e.cause <;> decide

section
variable {i : Instr} {s t : State}

theorem runCommand_succeeds {pre : Option CmdError} {effect : State → State}
    (h : runCommand pre effect s = .next t) (hok : t.cause = 0) : t = (effect s).finish 0 := by
  rcases runCommand_cases h with ⟨e, -, rfl⟩ | ⟨-, ht⟩
  · exact absurd hok (raiseErr_cause_ne_zero e s)
  · exact ht

theorem startCall_succeeds {go : State → State} (h : startCall go s = .next t) (hok : t.cause = 0) :
    t = (go (openCall s.close)).finish 0 := by
  rcases startCall_cases go s with ⟨e, -, he⟩ | ⟨r, -, hr⟩ | ⟨-, ha⟩
  · cases he.symm.trans h
    exact absurd hok (raiseErr_cause_ne_zero e s.close)
  · cases hr.symm.trans h
  · cases ha.symm.trans h
    rfl

theorem execMacTile_succeeds {n : Nat} (h : execMacTile n s = .next t) (hok : t.cause = 0) :
    t = (computeTile n s).finish 0 := by
  rcases execMacTile_cases h with ⟨e, -, rfl⟩ | ⟨k, -, -, rfl⟩ | ⟨-, -, ht⟩
  · exact absurd hok (raiseErr_cause_ne_zero e s)
  · exact absurd hok (raiseErr_cause_ne_zero _ _)
  · exact ht

/-- GETSIZE succeeds only on a shape that passes both checks (40_planner.md R171). -/
theorem execGetsize_succeeds (h : execGetsize s = .next t) (hok : t.cause = 0) :
    ShapeLegal s.cfg ∧ checkCapacity s.params s.cfg = none ∧
      t = s.finish (s.cfg.scratchTotal s.params) := by
  unfold execGetsize at h
  split at h
  · cases h
    exact absurd hok (raiseErr_cause_ne_zero _ s)
  · rename_i hnone
    cases h
    have hpass := (firstFailure_eq_none _).1 hnone
    exact ⟨(checkShape_eq_none _).1 (hpass _ (by simp)), hpass _ (by simp), rfl⟩

/-- A command that ends with CAUSE 0 performed its effect and reported its value. -/
theorem exec_succeeds (h : exec i s = .next t) (hok : t.cause = 0) :
    t = (commandEffect i s).finish (commandValue i s) := by
  cases i with
  | nop => cases h; rfl
  | getsize => exact (execGetsize_succeeds h hok).2.2
  | callBegin => exact startCall_succeeds h hok
  | conv => exact startCall_succeeds h hok
  | macTile n => exact execMacTile_succeeds h hok
  | callEnd => exact runCommand_succeeds h hok
  | decomp => exact runCommand_succeeds h hok
  | cbInit => exact runCommand_succeeds h hok
  | cbFeed n => exact runCommand_succeeds h hok
  | ksClear => exact runCommand_succeeds h hok
  | kstage => exact runCommand_succeeds h hok
  | reqWrite => exact runCommand_succeeds h hok

theorem isCount_commandValue (hp : s.params.ok = true) (h : exec i s = .next t) (hok : t.cause = 0) :
    IsCount (commandValue i s) := by
  unfold commandValue
  split
  · subst i
    obtain ⟨hshape, hcap, -⟩ := execGetsize_succeeds h hok
    exact (planFits hp hshape hcap).total
  · exact ⟨le_rfl, by decide⟩

end

/-- With a high word of 0 a result is its low word, if that is not negative (10_state.md R37). -/
theorem toInt_zero_append {w : Word} (h : 0 ≤ w.toInt) : ((0 : Word) ++ w : BitVec 64).toInt = w.toInt := by
  have hnat : ((0 : Word) ++ w : BitVec 64).toNat = w.toNat :=
    (BitVec.toNat_append (0 : Word) w).trans (by simp)
  have hlt := w.isLt
  rw [BitVec.toInt_eq_toNat_of_lt (by omega), hnat, isCount_toNat h]

theorem resultValue_finish {v : Int} (h : IsCount v) (s : State) : (s.finish v).resultValue = v := by
  have hlo := toInt_ofInt_of_isCount h
  rw [finish_of_isCount h, State.resultValue, toInt_zero_append (hlo.ge.trans' h.1), hlo]

theorem keptByConv_err (b : Bool) : KeptByConv fun s => s.status.err = b := by
  constructor
  all_goals
    intros
    assumption

theorem commandEffect_err (i : Instr) (s : State) : (commandEffect i s).status.err = s.status.err := by
  cases i with
  | conv => exact (keptByConv_err _).convolve rfl
  | _ => rfl

/-- Settles O16: a success is the effect, which leaves ERR alone, and a value that is a count. -/
theorem successReportsResult : Obligations.SuccessReportsResult := by
  intro i s t hp h hok
  have hcount := isCount_commandValue hp h hok
  obtain rfl := exec_succeeds h hok
  have hvalue := resultValue_finish hcount (commandEffect i s)
  exact ⟨rfl, commandEffect_err i s, hvalue.ge.trans' hcount.1, hvalue⟩

/-! ### The shape checks (40_planner.md R172) -/

theorem require_precision (t : Int) (c : Cause) (i : Nat) :
    require (precisionOfTag t).isSome c i =
      if 0 ≤ t ∧ t ≤ 5 then none else some { cause := c, info := i } := by
  rw [← require_decide, Bool.eq_iff_iff.2 ((precisionOfTag_isSome t).trans decide_eq_true_iff.symm)]

/-- Steps S3 before other checks: the twelve registers in ascending order. -/
theorem firstFailure_sizeChecks (c : Cfg) (t : List (Option CmdError)) :
    firstFailure (c.sizeRegisters.map (fun r => require (decide (0 < r.2.toInt)) .size r.1) ++ t) =
      if c.inH.toInt ≤ 0 then some { cause := .size, info := 0x10 }
      else if c.inW.toInt ≤ 0 then some { cause := .size, info := 0x11 }
      else if c.inC.toInt ≤ 0 then some { cause := .size, info := 0x12 }
      else if c.outH.toInt ≤ 0 then some { cause := .size, info := 0x13 }
      else if c.outW.toInt ≤ 0 then some { cause := .size, info := 0x14 }
      else if c.kH.toInt ≤ 0 then some { cause := .size, info := 0x15 }
      else if c.kW.toInt ≤ 0 then some { cause := .size, info := 0x16 }
      else if c.chMult.toInt ≤ 0 then some { cause := .size, info := 0x17 }
      else if c.strideX.toInt ≤ 0 then some { cause := .size, info := 0x18 }
      else if c.strideY.toInt ≤ 0 then some { cause := .size, info := 0x19 }
      else if c.dilX.toInt ≤ 0 then some { cause := .size, info := 0x1A }
      else if c.dilY.toInt ≤ 0 then some { cause := .size, info := 0x1B }
      else firstFailure t := by
  simp only [Cfg.sizeRegisters, List.map_cons, List.map_nil, List.cons_append, List.nil_append,
    require_decide, firstFailure_unless, not_lt]

/-- Settles O23: PREC and LAYOUT, the chain of sizes, the paddings; then a failing shape check is the first
failure of all three commands. -/
theorem shapeCheckOrder : Obligations.ShapeCheckOrder := by
  refine ⟨fun c => ?_, fun s e hshape => ?_⟩
  · rw [checkShape, List.append_assoc, List.cons_append, require_precision, firstFailure_unless,
      List.cons_append, ← Bool.decide_or, require_decide, firstFailure_unless, List.nil_append,
      firstFailure_sizeChecks]
    simp only [require_decide, firstFailure_unless, not_le, firstFailure]
  · exact ⟨exec_getsize_of_check (by rw [hshape, firstFailure]),
      exec_callBegin_of_check (by rw [hshape, firstFailure]),
      exec_conv_of_check (by rw [hshape, firstFailure])⟩

/-! ### BEGIN on a legal configuration (46_conv_sequencer.md R351, 40_planner.md R175) -/

theorem startCall_of_accept {s : State} (h : callVerdict s.params s.cfg s.mem = .accept)
    (go : State → State) : startCall go s = .next ((go (openCall s.close)).finish 0) := by
  simp [startCall, h]

/-- Settles O26: a legal configuration is accepted, and BEGIN's effect is `openCall` of the closed state. -/
theorem beginOpensCall : Obligations.BeginOpensCall := by
  intro s hlegal hshift
  exact startCall_of_accept (callVerdict_accept.2 ⟨hlegal, hshift⟩) id

end Sys2Proof.Machine

/-! SUPPORT. The proofs of the family 41_circular_buffer about CB_FEED (O34, O36): what it leaves in the
registers, and that the window it leaves holds every entry its tile reads. -/

namespace Sys2Proof.Machine

/-- Settles O34: with its preconditions met CB_FEED performs its effect, and memory changes at its stores
only. -/
theorem cbFeedCompletes : Obligations.CbFeedCompletes := by
  rintro s n ho hring hn0 hn1 hj0 hj1 _ _ _ _ _ rfl rfl rfl rfl rfl
  refine ⟨(feedRing n s).mem, ?_, fun a ha => read_applyStores_outside ha⟩
  rw [exec, execCbFeed, (cbFeedPre_eq_none n s).2 ⟨ho, hring, ⟨hn0, hn1⟩, hj0, hj1⟩, runCommand_none]
  rfl

/-! ### A CB_FEED that succeeds (60_exceptions.md R391, 41_circular_buffer.md R194) -/

section
variable {n : Nat} {s t : State}

/-- A command with preconditions ends with CAUSE 0 only if they are met. -/
theorem pre_of_runCommand_succeeds {pre : Option CmdError} {effect : State → State}
    (h : runCommand pre effect s = .next t) (hok : t.cause = 0) : pre = none := by
  rcases runCommand_cases h with ⟨e, -, rfl⟩ | ⟨hpre, -⟩
  · exact absurd hok (raiseErr_cause_ne_zero e s)
  · exact hpre

theorem execCbFeed_succeeds (h : execCbFeed n s = .next t) (hok : t.cause = 0) :
    cbFeedPre n s = none ∧ t = (feedRing n s).finish 0 :=
  ⟨pre_of_runCommand_succeeds h hok, runCommand_succeeds h hok⟩

/-! ### The entries of a tile (41_circular_buffer.md R194, R199) -/

/-- Tap `ta` of output `k` of the tile reads one of the `need` entries from `start` on. -/
theorem tileEntry_mem (hx : s.cfg.axes.Legal) (hdec : DecompositionStored s) {k ta : Int}
    (hk : 0 ≤ k ∧ k < n) (hta : 0 ≤ ta ∧ ta < s.cfg.axes.kA) :
    s.tileStart ≤ (s.ctx.j0.toInt + k) * s.cfg.axes.reducedStride + ta ∧
      (s.ctx.j0.toInt + k) * s.cfg.axes.reducedStride + ta < s.tileStart + s.tileNeed n := by
  have hstride := hx.lattice.stride_pos
  have hfirst : 0 ≤ k * s.cfg.axes.reducedStride := Int.mul_nonneg hk.1 (by omega)
  have hlast : k * s.cfg.axes.reducedStride ≤ ((n : Int) - 1) * s.cfg.axes.reducedStride :=
    Int.mul_le_mul_of_nonneg_right (by omega) (by omega)
  rw [State.tileStart, State.tileNeed, hdec.rstride, add_mul]
  omega

/-- The entries a tile needs fit into the ring. -/
theorem CallOpen.tileNeed_le_cap (h : CallOpen s) (hdec : DecompositionStored s)
    (hn : 1 ≤ n ∧ n ≤ s.params.rIter) : s.tileNeed n ≤ s.book.cbCap.toInt := by
  rw [State.tileNeed, hdec.rstride, h.layout.cap]
  exact tileSpan_le_ringCapacity h.config.shapeLegal (by omega) (by omega)

/-- The window that CB_FEED leaves holds the tile's entries: none is evicted, for they fit into the ring, and
none was dropped before, for the tile starts no earlier than the oldest resident entry (log 19). -/
theorem Inv.tileEntry_resident (h : Inv s) (hpre : cbFeedPre n s = none) (hback : s.oldestEntry ≤ s.tileStart)
    {nn : Int} (h0 : s.tileStart ≤ nn) (h1 : nn < s.tileStart + s.tileNeed n) :
    (feedRing n s).oldestEntry ≤ nn ∧ nn < (feedRing n s).book.cbFed.toInt := by
  obtain ⟨-, hst, hn, hplace⟩ := (cbFeedPre_eq_none n s).1 hpre
  obtain ⟨-, hvalid, -⟩ := (h.ring hst).valid
  have hfit := (h.callOpen_of_ring hst).tileNeed_le_cap (h.decomposition (h.flags.ring hst)) hn
  obtain ⟨hfed, hold⟩ := feedRing_window (h.ring hst) (h.feedFacts hst hn hplace)
    (h.subEntries_le_countMax hst)
  rw [hfed, hold, State.feedKeepFrom, State.feedCount]
  unfold State.oldestEntry at hback ⊢
  omega

/-! ### The padded array in the ring (41_circular_buffer.md R203) -/

/-- CB_FEED leaves the input tensor, and so the samples that depend on it, alone. -/
theorem Inv.ringSample_feedRing (h : Inv s) (hst : s.status.cbState ≠ .uninitialized) (q u : Int) :
    ringSample s.cfg (feedRing n s).mem s.ctx.ic.toInt q u = ringSample s.cfg s.mem s.ctx.ic.toInt q u := by
  have hopen := h.callOpen_of_ring hst
  obtain ⟨hcb, hks, hacc, htotal⟩ := hopen.offsets_order
  exact hopen.config.ringSample_congr
    (fun a ha => hopen.read_feedRing (n := n) (hopen.input_not_inScratch ha hcb (by omega)))
    (h.ring hst).channel q u

/-- An entry resident after CB_FEED holds the samples of the input as it was before. -/
theorem FilledRing.windowSample_feedRing (h : FilledRing s) (hpre : cbFeedPre n s = none) {nn u : Int}
    (hnn : (feedRing n s).oldestEntry ≤ nn ∧ nn < (feedRing n s).book.cbFed.toInt)
    (hu : 0 ≤ u ∧ u < s.cfg.axes.line) :
    (feedRing n s).windowSample nn u =
      ringSample s.cfg s.mem s.ctx.ic.toInt (s.cfg.axes.entryCoord s.ctx.res.toInt nn) u := by
  obtain ⟨-, hst, -, -⟩ := (cbFeedPre_eq_none n s).1 hpre
  exact ((h.feeds hpre).holds nofun nn u hnn.1 hnn.2 hu.1 hu.2).trans (h.inv.ringSample_feedRing hst _ u)

end

/-- Settles O36: the tile's entries are resident after CB_FEED, and a resident entry holds its samples. -/
theorem paddingCorrectness : Obligations.PaddingCorrectness := by
  intro s t n hinv hholds hexec hok hback k ta hk0 hk1 hta0 hta1
  obtain ⟨hpre, rfl⟩ := execCbFeed_succeeds hexec hok
  obtain ⟨ho, hst, -, -⟩ := (cbFeedPre_eq_none n s).1 hpre
  obtain ⟨hstart, hend⟩ :=
    tileEntry_mem (hinv.config ho).axes (hinv.decomposition (hinv.flags.ring hst)) ⟨hk0, hk1⟩ ⟨hta0, hta1⟩
  have hresident := hinv.tileEntry_resident hpre hback hstart hend
  exact ⟨hresident.1, hresident.2, fun u hu0 hu1 =>
    FilledRing.windowSample_feedRing ⟨hinv, hholds⟩ hpre hresident ⟨hu0, hu1⟩⟩

end Sys2Proof.Machine

/-! SUPPORT. The proof of the family 42_kernel_stager about KSTAGE (O40): the registers it writes and its
frame. -/

namespace Sys2Proof.Machine

/-- KSTAGE performs its effect when its preconditions are met (42_kernel_stager.md R232). -/
theorem exec_kstage_of_pre {s : State} (h : kstagePre s = none) :
    exec .kstage s = .next ((stageKernel s).finish 0) := by
  rw [exec, execKstage, h, runCommand_none]

/-- Settles O40: with its preconditions met KSTAGE performs its effect, and memory changes at its stores
only. -/
theorem kstageCompletes : Obligations.KstageCompletes := by
  intro s ho hk hic0 hic1 hm0 hm1
  have hpre : kstagePre s = none := (kstagePre_eq_none s).2 ⟨ho, hk, ⟨hic0, hic1⟩, hm0, hm1⟩
  exact ⟨(stageKernel s).mem, exec_kstage_of_pre hpre, fun a ha => read_applyStores_outside ha⟩

end Sys2Proof.Machine

/-! SUPPORT. The proofs of the family 43_compute_loop about how MAC_TILE ends (O42, O43) and about the sticky
flags (O18). -/

namespace Sys2Proof.Machine

/-! ### A MAC_TILE whose preconditions are met (43_compute_loop.md R250, R251) -/

section
variable {n : Nat} {s t : State}

theorem exec_macTile_of_resident (hpre : macTilePre n s = none) (hwin : s.windowMisses n = none) :
    exec (.macTile n) s = .next ((computeTile n s).finish 0) := by
  rw [exec, execMacTile, hpre, hwin]

theorem exec_macTile_of_missing (hpre : macTilePre n s = none) {k : Nat} (hwin : s.windowMisses n = some k) :
    exec (.macTile n) s = .next (underrunReturn k s) := by
  rw [exec, execMacTile, hpre, hwin]

/-- Where the window test fails, its detail says which end of the window is missing. -/
theorem windowMisses_of_missing
    (h : ¬(s.oldestEntry ≤ s.tileStart ∧ s.tileStart + s.tileNeed n ≤ s.book.cbFed.toInt)) :
    s.windowMisses n = some (if s.tileStart < s.oldestEntry then 1 else 2) := by
  unfold State.windowMisses
  split
  · rfl
  · rw [if_pos (by omega)]

theorem outside64_iff (v : Int) : outside64 v = true ↔ v < -(2 ^ 63) ∨ 2 ^ 63 ≤ v := by
  rw [outside64, Bool.or_eq_true, decide_eq_true_eq, decide_eq_true_eq]

/-- Only S8S16 can overflow, and its bias step is the plain sum (43_compute_loop.md R254, R256). -/
theorem biasOverflows_iff (c : Cfg) (acc b : Int) :
    biasOverflows c acc b = true ↔ c.precision = .s8s16 ∧ (acc + b < -(2 ^ 63) ∨ 2 ^ 63 ≤ acc + b) := by
  rw [biasOverflows, Bool.and_eq_true, decide_eq_true_eq, outside64_iff]
  refine and_congr_right fun hp => ?_
  simp only [biasedSum, hp]

theorem tileOverflows_iff (s : State) (n : Nat) :
    s.tileOverflows n = true ↔ ∃ t w : Nat, t < n ∧ (w : Int) < s.cfg.axes.outC ∧
      biasOverflows s.cfg (s.tapSum t w) s.tileBias = true := by
  simp only [State.tileOverflows, List.any_eq_true, mem_tileIndices, Prod.exists, and_assoc]

end

/-- Settles O42: with the window resident MAC_TILE performs its effect, which stores the tile and notes an
overflowing bias add. -/
theorem macTileCompletes : Obligations.MacTileCompletes := by
  intro s n ho hring hk hn0 hn1 hj0 hj1 hold hfed
  have hpre : macTilePre n s = none := (macTilePre_eq_none n s).2 ⟨ho, hring, hk, ⟨hn0, hn1⟩, hj0, hj1⟩
  have hwin : s.windowMisses n = none := (windowMisses_eq_none n s).2 ⟨hold, hfed⟩
  refine ⟨(computeTile n s).mem, s.tileOverflows n, exec_macTile_of_resident hpre hwin, ?_,
    fun a ha => read_applyStores_outside ha⟩
  simp only [tileOverflows_iff, biasOverflows_iff]
  constructor
  · rintro ⟨t, w, ht, hw, hp, hovf⟩
    exact ⟨hp, t, w, ht, hw, hovf⟩
  · rintro ⟨hp, t, w, ht, hw, hovf⟩
    exact ⟨t, w, ht, hw, hp, hovf⟩

/-- Settles O43: with the window not resident MAC_TILE returns early with the detail of the window test. -/
theorem macTileEarlyReturn : Obligations.MacTileEarlyReturn := by
  rintro s n ho hring hk hn0 hn1 hj0 hj1 _ _ rfl rfl hmiss
  have hpre : macTilePre n s = none := (macTilePre_eq_none n s).2 ⟨ho, hring, hk, ⟨hn0, hn1⟩, hj0, hj1⟩
  rw [exec_macTile_of_missing hpre (windowMisses_of_missing hmiss)]
  have hinfo : BitVec.ofNat 32 (if s.tileStart < s.oldestEntry then 1 else 2) =
      if s.tileStart < s.oldestEntry then 1 else 2 := by split <;> rfl
  rw [underrunReturn, State.raiseErr, hinfo]
  rfl

/-! ### The sticky flags (60_exceptions.md R400) -/

theorem keptByConv_underrun (b : Bool) : KeptByConv fun s => s.status.underrun = b := by
  constructor
  all_goals
    intros
    assumption

/-- No part of CONV clears ACC_OVF: MAC_TILE only adds to it. -/
theorem keptByConv_accOvf_set : KeptByConv fun s => s.status.accOvf = true := by
  constructor
  case computeTile =>
    intro n s hs
    rw [computeTile_status, hs, Bool.true_or]
  all_goals
    intros
    assumption

theorem precision_of_tileOverflows {s : State} {n : Nat} (h : s.tileOverflows n = true) :
    s.cfg.precision = .s8s16 := by
  obtain ⟨t, w, -, -, hovf⟩ := (tileOverflows_iff s n).1 h
  exact ((biasOverflows_iff _ _ _).1 hovf).1

/-- ACC_OVF is set only if it was set before or the precision is S8S16 (43_compute_loop.md R254). -/
def OvfExplained (s t : State) : Prop :=
  t.cfg = s.cfg ∧ (t.status.accOvf = true → s.status.accOvf = true ∨ s.cfg.precision = .s8s16)

theorem OvfExplained.computeTile {s t : State} (h : OvfExplained s t) (n : Nat) :
    OvfExplained s (computeTile n t) := by
  refine ⟨h.1, fun hovf => ?_⟩
  rw [computeTile_status] at hovf
  rcases Bool.or_eq_true_iff.1 hovf with hold | hnew
  · exact h.2 hold
  · exact .inr (by rw [← h.1]; exact precision_of_tileOverflows hnew)

theorem keptByConv_ovfExplained (s : State) : KeptByConv (OvfExplained s) := by
  constructor
  case computeTile => exact fun n t ht => ht.computeTile n
  all_goals
    intros
    assumption

section
variable (i : Instr) (s : State)

theorem commandEffect_underrun : (commandEffect i s).status.underrun = s.status.underrun := by
  cases i with
  | conv => exact (keptByConv_underrun _).convolve rfl
  | _ => rfl

theorem commandEffect_accOvf_set (h : s.status.accOvf = true) :
    (commandEffect i s).status.accOvf = true := by
  cases i with
  | conv => exact keptByConv_accOvf_set.convolve h
  | macTile n => exact keptByConv_accOvf_set.computeTile n s h
  | _ => exact h

theorem commandEffect_accOvf (h : (commandEffect i s).status.accOvf = true) :
    s.status.accOvf = true ∨ ((∃ n, i = .macTile n) ∨ i = .conv) ∧ s.cfg.precision = .s8s16 := by
  cases i with
  | conv =>
    exact (((keptByConv_ovfExplained (openCall s.close)).convolve ⟨rfl, Or.inl⟩).2 h).imp_right
      fun hp => ⟨.inr rfl, hp⟩
  | macTile n =>
    have hs : OvfExplained s s := ⟨rfl, Or.inl⟩
    exact ((hs.computeTile n).2 h).imp_right fun hp => ⟨.inl ⟨n, rfl⟩, hp⟩
  | _ => exact .inl h

end

/-- Settles O18: an error sets ERR only, the early return of MAC_TILE sets UNDERRUN, and an effect adds at
most ACC_OVF. -/
theorem commandsKeepStickyFlags : Obligations.CommandsKeepStickyFlags := by
  intro i s t hexec
  cases exec_ends hexec with
  | error e => exact ⟨fun _ => rfl, id, id, Or.inl, Or.inl⟩
  | rejected e _ => exact ⟨fun _ => rfl, id, id, Or.inl, Or.inl⟩
  | underrun n k hi => exact ⟨fun _ => rfl, fun _ => rfl, id, fun _ => .inr ⟨⟨n, hi⟩, rfl⟩, Or.inl⟩
  | done v _ =>
    have herr := commandEffect_err i s
    have hunder := commandEffect_underrun i s
    exact ⟨herr.trans, hunder.trans, commandEffect_accOvf_set i s, fun h => .inl (hunder.symm.trans h),
      fun h => (commandEffect_accOvf i s h).imp_right fun ⟨hi, hp⟩ => ⟨hi, rfl, hp⟩⟩

end Sys2Proof.Machine

/-! SUPPORT. The proofs of the family 43_compute_loop about the accumulators: their range (O45), what MAC_TILE
stores (O44), and that a tile holds the sums of the reference function (O46). -/

namespace Sys2Proof.Machine

/-! ### The range of an accumulator (43_compute_loop.md R254) -/

theorem length_tapOrder (c : Cfg) : (tapOrder c).length = c.kH.toInt.toNat * c.kW.toInt.toNat := by
  unfold tapOrder
  split <;> simp [List.length_flatMap]

/-- A sum of steps none of which is larger than `B`. -/
theorem abs_foldl_sub_le {α : Type} {f : Int → α → Int} {B : Int} {l : List α}
    (h : ∀ acc, ∀ a ∈ l, |f acc a - acc| ≤ B) (acc : Int) : |l.foldl f acc - acc| ≤ l.length * B := by
  induction l generalizing acc with
  | nil => simp
  | cons a l ih =>
    have hstep := h acc a List.mem_cons_self
    have hrest := ih (fun acc x hx => h acc x (List.mem_cons_of_mem a hx)) (f acc a)
    have hsplit := abs_sub_le (l.foldl f (f acc a)) (f acc a) acc
    rw [List.foldl_cons, List.length_cons]
    push_cast
    rw [add_mul, one_mul]
    omega

theorem abs_mul_le_of_abs_le {x y X Y : Int} (hx : |x| ≤ X) (hy : |y| ≤ Y) : |x * y| ≤ X * Y := by
  rw [abs_mul]
  exact mul_le_mul hx hy (abs_nonneg y) ((abs_nonneg x).trans hx)

/-- One step of an integer sum adds at most 2^29 for each byte of the tap. -/
theorem abs_macStep_sub_le {c : Cfg} (hc : ArgsLegal c) (hp : c.precision ≠ .f32) {x k : Int} (acc : Int)
    (hx : c.precision.tIn.holds x) (hk : c.precision.tK.holds k) :
    |macStep c acc x k - acc| ≤ 2 ^ 29 * c.precision.esK := by
  cases hprec : c.precision with
  | f32 => exact absurd hprec hp
  | i8 | i16 | s8s16 =>
    rw [hprec] at hx hk
    simp only [macStep, hprec, add_sub_cancel_left]
    exact (abs_mul_le_of_abs_le (abs_le.2 ⟨hx.1, hx.2.le⟩) (abs_le.2 ⟨hk.1, hk.2.le⟩)).trans (by decide)
  | asym8 =>
    obtain ⟨-, -, hkz⟩ := hc.asym hprec
    obtain ⟨hz0, hz1, -⟩ := hc.quantized8 (.inl hprec)
    rw [hprec] at hx hk
    simp only [Prec.tIn, Prec.tK, ElemType.holds] at hx hk
    simp only [macStep, hprec, add_sub_cancel_left]
    exact (abs_mul_le_of_abs_le (X := 256) (Y := 256) (abs_le.2 ⟨by omega, by omega⟩)
      (abs_le.2 ⟨by omega, by omega⟩)).trans (by decide)
  | pc8 =>
    obtain ⟨hz0, hz1, -⟩ := hc.quantized8 (.inr hprec)
    rw [hprec] at hx hk
    simp only [Prec.tIn, Prec.tK, ElemType.holds] at hx hk
    simp only [macStep, hprec, add_sub_cancel_left]
    exact (abs_mul_le_of_abs_le (X := 256) (Y := 256) (abs_le.2 ⟨by omega, by omega⟩)
      (abs_le.2 ⟨by omega, by omega⟩)).trans (by decide)

theorem ConfigLegal.inC_pos {p : Config.Params} {c : Cfg} (h : ConfigLegal p c) : 0 < c.inC.toInt := by
  obtain ⟨-, -, hin⟩ := h.shapeLegal.input
  exact hin

theorem ConfigLegal.chMult_pos {p : Config.Params} {c : Cfg} (h : ConfigLegal p c) : 0 < c.chMult.toInt := by
  obtain ⟨-, -, hmult⟩ := h.shapeLegal.kernel
  exact hmult

theorem ConfigLegal.outChannels_pos {p : Config.Params} {c : Cfg} (h : ConfigLegal p c) : 0 < c.outChannels :=
  Int.mul_pos h.inC_pos h.chMult_pos

/-- The bytes of one filter are a count (40_planner.md R173, quantity 14). -/
theorem ConfigLegal.filterBytes_le {p : Config.Params} {c : Cfg} (h : ConfigLegal p c) :
    ((tapOrder c).length : Int) * c.precision.esK ≤ Config.countMax := by
  obtain ⟨hh, hw, -⟩ := h.shapeLegal.kernel
  have htaps : ((tapOrder c).length : Int) = c.kH.toInt * c.kW.toInt := by
    rw [length_tapOrder, Nat.cast_mul, Int.toNat_of_nonneg hh.le, Int.toNat_of_nonneg hw.le]
  have hbytes : c.kernelBytes ≤ Config.countMax :=
    (checkCapacity_eq_none p c).1 h.capacity (14, c.kernelBytes)
      (by simp only [capacityQuantities, List.mem_cons, true_or, or_true])
  have hone : 0 ≤ ((tapOrder c).length : Int) * c.precision.esK :=
    Int.mul_nonneg (Int.natCast_nonneg _) c.precision.esK_pos.le
  calc ((tapOrder c).length : Int) * c.precision.esK
      ≤ c.outChannels * (((tapOrder c).length : Int) * c.precision.esK) :=
        le_mul_of_one_le_left hone h.outChannels_pos
    _ = c.kernelBytes := by
        rw [htaps]
        unfold Cfg.kernelBytes
        ring
    _ ≤ Config.countMax := hbytes

/-- No tap sum of an integer precision reaches 2^60. -/
theorem CallOpen.abs_tapSum_lt {s : State} (h : CallOpen s) (hp : s.cfg.precision ≠ .f32) (t w : Int) :
    |s.tapSum t w| < 2 ^ 60 := by
  have hsum : |s.tapSum t w - 0| ≤ (tapOrder s.cfg).length * (2 ^ 29 * s.cfg.precision.esK) :=
    abs_foldl_sub_le (fun acc tap _ =>
      abs_macStep_sub_le h.config.argsLegal hp acc (load_holds _ _ _) (load_holds _ _ _)) 0
  have hbytes := h.config.filterBytes_le
  rw [sub_zero, mul_left_comm] at hsum
  simp only [Config.countMax] at hbytes
  omega

/-- Outside S8S16 the bias step adds less than 2^60 (43_compute_loop.md R256). -/
theorem abs_biasedSum_sub_lt {c : Cfg} (hc : ArgsLegal c) (hp : c.precision ≠ .f32)
    (hs : c.precision ≠ .s8s16) {b : Int} (acc : Int) (hb : c.precision.tB.holds b) :
    |biasedSum c acc b - acc| < 2 ^ 60 := by
  have hshift : c.precision = .i8 ∨ c.precision = .i16 → |(2 : Int) ^ c.biasShift.toInt.toNat| ≤ 2 ^ 31 := by
    intro hi
    obtain ⟨-, -, h0, h1⟩ := hc.shifts hi
    rw [abs_of_nonneg (by positivity)]
    exact pow_le_pow_right₀ (by norm_num) (by omega)
  cases hprec : c.precision with
  | f32 => exact absurd hprec hp
  | s8s16 => exact absurd hprec hs
  | i8 | i16 =>
    rw [hprec] at hb
    simp only [biasedSum, hprec, add_sub_cancel_left]
    exact (abs_mul_le_of_abs_le (abs_le.2 ⟨hb.1, hb.2.le⟩) (hshift (by simp [hprec]))).trans_lt (by decide)
  | asym8 | pc8 =>
    rw [hprec] at hb
    simp only [Prec.tB, ElemType.holds] at hb
    simp only [biasedSum, hprec, add_sub_cancel_left]
    exact abs_lt.2 ⟨by omega, by omega⟩

/-- Outside S8S16 the bias step of an integer precision stays within 64 bits (43_compute_loop.md R254). -/
theorem CallOpen.biasedSum_bounds {s : State} (h : CallOpen s) (hp : s.cfg.precision ≠ .f32)
    (hs : s.cfg.precision ≠ .s8s16) (t w : Int) :
    -(2 ^ 63) ≤ biasedSum s.cfg (s.tapSum t w) s.tileBias ∧
      biasedSum s.cfg (s.tapSum t w) s.tileBias < 2 ^ 63 := by
  have hsum := h.abs_tapSum_lt hp t w
  have hbias := abs_biasedSum_sub_lt h.config.argsLegal hp hs (s.tapSum t w)
    (show s.cfg.precision.tB.holds s.tileBias from load_holds _ _ _)
  rw [abs_lt] at hsum hbias
  omega

/-- Settles O45: a filter has fewer than 2^31 bytes, a step adds at most 2^29 for each, and a bias less than
2^60. -/
theorem accumulatorRange : Obligations.AccumulatorRange := by
  intro s t w hinv ho hp
  have hopen := hinv.callOpen ho
  exact ⟨(hopen.abs_tapSum_lt hp t w).trans (by norm_num), fun hs => hopen.biasedSum_bounds hp hs t w⟩

/-! ### What MAC_TILE stores (43_compute_loop.md R250, R257) -/

/-- The type an accumulator is loaded as: a pattern or 64 bits (43_compute_loop.md R257). -/
def Prec.tAcc (p : Prec) : ElemType := if p = .f32 then .f32 else .s64

theorem loadAcc_eq (s : State) (e : Int) :
    s.loadAcc e = s.mem.load (s.accAddr e) s.cfg.precision.tAcc := by
  unfold State.loadAcc
  cases s.cfg.precision <;> rfl

theorem tAcc_size_le (p : Prec) : p.tAcc.size ≤ 8 := by cases p <;> decide

/-- The accumulator MAC_TILE stores is a value of its type: the bias step of S8S16 wraps to 64 bits, and no
other leaves them. -/
theorem CallOpen.addBias_holds {s : State} (h : CallOpen s) (t w : Int) :
    s.cfg.precision.tAcc.holds (addBias s.cfg (s.tapSum t w) s.tileBias) := by
  cases hprec : s.cfg.precision with
  | f32 =>
    simp only [addBias, biasedSum, hprec, onPatterns]
    exact ⟨Int.natCast_nonneg _, by have := (F32.add (BitVec.ofInt 32 (s.tapSum t w))
      (BitVec.ofInt 32 s.tileBias)).isLt; omega⟩
  | s8s16 =>
    simp only [addBias, hprec, sext64]
    exact ⟨BitVec.le_toInt _, BitVec.toInt_lt⟩
  | i8 | i16 | asym8 | pc8 =>
    simp only [addBias, hprec]
    exact h.biasedSum_bounds (by simp [hprec]) (by simp [hprec]) t w

/-- The address of an accumulator entry of the staging region (10_state.md R75). -/
theorem CallOpen.accAddr_eq {s : State} (h : CallOpen s) {e : Int}
    (he : 0 ≤ e ∧ e < s.params.rIter * s.cfg.axes.outC) :
    (s.accAddr e : Int) = s.cfg.scratchPtr.toNat + s.cfg.offAcc s.params + 8 * e ∧
      (s.accAddr e : Int) + 8 ≤ 2 ^ 32 := by
  obtain ⟨o0, o1, o2, o3⟩ := h.offsets_order
  have hspace := h.offsets_le.2.2
  have htotal : s.cfg.scratchTotal s.params =
      s.cfg.offAcc s.params + s.params.rIter * s.cfg.axes.outC * 8 := rfl
  rw [State.accAddr, h.layout.offAcc, Config.accEntryBytes, h.ptrPlus_scratch (by omega) (by omega)]
  omega

/-- Entry (t, w) of a tile is an entry of the accumulator file. -/
theorem accEntry_bounds {s : State} {n t w : Nat} (hn : n ≤ s.params.rIter) (ht : t < n)
    (hw : (w : Int) < s.cfg.axes.outC) :
    0 ≤ t * s.cfg.axes.outC + (w : Int) ∧
      t * s.cfg.axes.outC + (w : Int) < s.params.rIter * s.cfg.axes.outC :=
  grid_index_lt ⟨Int.natCast_nonneg t, by omega⟩ ⟨Int.natCast_nonneg w, hw⟩

theorem mem_macTileStores {s : State} {n : Nat} {st : Store} :
    st ∈ macTileStores n s ↔ ∃ t w : Nat, t < n ∧ (w : Int) < s.cfg.axes.outC ∧
      st = s.accStore (t * s.cfg.axes.outC + w) (addBias s.cfg (s.tapSum t w) s.tileBias) := by
  simp only [macTileStores, List.mem_map, Prod.exists, mem_tileIndices, and_assoc, eq_comm (a := st)]

/-- After MAC_TILE every entry of the tile holds what was stored: two entries coincide or lie apart. -/
theorem CallOpen.load_macTileStores {s : State} (h : CallOpen s) (m : Memory) {n t w : Nat}
    (hn : n ≤ s.params.rIter) (ht : t < n) (hw : (w : Int) < s.cfg.axes.outC) :
    (m.applyStores (macTileStores n s)).load (s.accAddr (t * s.cfg.axes.outC + w)) s.cfg.precision.tAcc =
      addBias s.cfg (s.tapSum t w) s.tileBias := by
  have hspace : (Config.addressSpace : Int) = 2 ^ 32 := rfl
  have hsize := tAcc_size_le s.cfg.precision
  obtain ⟨haddr, hend⟩ := h.accAddr_eq (accEntry_bounds hn ht hw)
  have hmem : s.accStore (t * s.cfg.axes.outC + w) (addBias s.cfg (s.tapSum t w) s.tileBias) ∈
      macTileStores n s := mem_macTileStores.2 ⟨t, w, ht, hw, rfl⟩
  refine load_applyStores_mem hmem rfl hsize (h.addBias_holds t w) (fun st hst => ?_) fun st hst => ?_
  · obtain ⟨t', w', -, -, rfl⟩ := mem_macTileStores.1 hst
    exact (by decide : 8 ≤ 2 ^ 32)
  · obtain ⟨t', w', ht', hw', rfl⟩ := mem_macTileStores.1 hst
    obtain ⟨haddr', hend'⟩ := h.accAddr_eq (accEntry_bounds hn ht' hw')
    by_cases he : (t' : Int) * s.cfg.axes.outC + w' = t * s.cfg.axes.outC + w
    · obtain ⟨htt, hww⟩ := grid_index_inj ⟨Int.natCast_nonneg w', hw'⟩ ⟨Int.natCast_nonneg w, hw⟩ he
      simp only [htt, hww, true_or, and_self]
    · refine .inr fun i hi j hj heq => he ?_
      simp only [State.accStore] at hj heq
      rw [wrapAddr_of_lt (by omega), wrapAddr_of_lt (by omega)] at heq
      omega

/-- A MAC_TILE that ends with CAUSE 0 met its preconditions and found its window resident. -/
theorem execMacTile_ready {n : Nat} {s r : State} (h : execMacTile n s = .next r) (hok : r.cause = 0) :
    macTilePre n s = none ∧ s.windowMisses n = none := by
  rcases execMacTile_cases h with ⟨e, -, rfl⟩ | ⟨k, -, -, rfl⟩ | ⟨hpre, hwin, -⟩
  · exact absurd hok (raiseErr_cause_ne_zero e s)
  · exact absurd hok (raiseErr_cause_ne_zero _ _)
  · exact ⟨hpre, hwin⟩

/-- Settles O44: the entries of the tile lie apart in the accumulator file, and each holds what was stored. -/
theorem macTileStoresAccumulators : Obligations.MacTileStoresAccumulators := by
  intro s r n hinv hexec hok t w ht hw
  obtain ⟨ho, -, -, hn, -⟩ := (macTilePre_eq_none n s).1 (execMacTile_ready hexec hok).1
  obtain rfl := execMacTile_succeeds hexec hok
  rw [loadAcc_eq]
  exact (hinv.callOpen ho).load_macTileStores s.mem hn.2 ht hw

/-! ### REF along the ring axis and the cross axis (46_conv_sequencer.md R355, 20_memory.md R113) -/

theorem mem_tapOrder {c : Cfg} {tap : Int × Int} : tap ∈ tapOrder c ↔
    (0 ≤ tap.1 ∧ tap.1 < c.axes.kA) ∧ (0 ≤ tap.2 ∧ tap.2 < c.axes.kC) := by
  obtain ⟨ta, tc⟩ := tap
  cases hl : c.channelFirst with
  | true =>
    simp only [tapOrder, Cfg.axes, hl, if_true]
    rw [mem_grid (f := fun ky kx => (ky, kx))]
    constructor
    · rintro ⟨ky, kx, hky, hkx, he⟩
      cases he
      exact ⟨hky, hkx⟩
    · rintro ⟨hta, htc⟩
      exact ⟨ta, tc, hta, htc, rfl⟩
  | false =>
    simp only [tapOrder, Cfg.axes, hl, Bool.false_eq_true, if_false]
    rw [mem_grid (f := fun ky kx => (kx, ky))]
    constructor
    · rintro ⟨ky, kx, hky, hkx, he⟩
      cases he
      exact ⟨hkx, hky⟩
    · rintro ⟨hta, htc⟩
      exact ⟨tc, ta, htc, hta, rfl⟩

/-- The sum of REF for output channel `oc`, with the ring-axis output `oa` and the cross-axis output `wc` as
coordinates and the taps in the order of MAC_TILE (46_conv_sequencer.md R355, 43_compute_loop.md R253). -/
def axisSum (c : Cfg) (m : Memory) (oc oa wc : Int) : Int :=
  (tapOrder c).foldl (fun acc tap =>
    macStep c acc
      (ringSample c m (oc / c.chMult.toInt) (oa * c.axes.sA + tap.1 * c.axes.dA - c.axes.pA)
        (wc * c.axes.sC + tap.2 * c.axes.dC))
      (kernelElem c m oc tap.1 tap.2)) 0

theorem axisSum_eq_refSum (c : Cfg) (m : Memory) (oc oa wc : Int) :
    axisSum c m oc oa wc = refSum c m oc (c.outputRow oa wc) (c.outputColumn oa wc) := by
  cases hl : c.channelFirst with
  | true =>
    simp only [axisSum, refSum, tapOrder, Cfg.outputRow, Cfg.outputColumn, hl, if_true, List.foldl_flatMap,
      List.foldl_map, refTap, refSample, ringSample, inputElem, kernelElem, Cfg.axes]
  | false =>
    simp only [axisSum, refSum, tapOrder, Cfg.outputRow, Cfg.outputColumn, hl, Bool.false_eq_true, if_false,
      List.foldl_flatMap, List.foldl_map, refTap, refSample, ringSample, inputElem, kernelElem, Cfg.axes,
      and_comm, and_left_comm]

/-! ### A tile holds the sums of REF (43_compute_loop.md R250, 45_decomposer.md R332) -/

section
variable {n : Nat} {s : State}

/-- A line of the ring has room for the taps of every cross-axis output (10_state.md R66). -/
theorem Axes.Legal.tapPosition_lt {x : Axes} (hx : x.Legal) {w tc : Int} (hw : 0 ≤ w ∧ w < x.outC)
    (htc : 0 ≤ tc ∧ tc < x.kC) : 0 ≤ w * x.sC + tc * x.dC ∧ w * x.sC + tc * x.dC < x.line := by
  obtain ⟨-, hs⟩ := hx.stride
  obtain ⟨-, hd⟩ := hx.dilation
  have h0 := Int.mul_nonneg hw.1 hs.le
  have h1 := Int.mul_nonneg htc.1 hd.le
  have h2 := Int.mul_le_mul_of_nonneg_right (by omega : w ≤ x.outC - 1) hs.le
  have h3 := Int.mul_le_mul_of_nonneg_right (by omega : tc ≤ x.kC - 1) hd.le
  have hline : (x.outC - 1) * x.sC + ((x.kC - 1) * x.dC + 1) ≤ x.line := le_max_left _ _
  omega

/-- The entry a tap reads stands for the input coordinate that REF reads (45_decomposer.md R332). -/
theorem Axes.Lattice.entryCoord_eq {x : Axes} (h : x.Lattice) (r j ta : Int) :
    x.entryCoord r (j * x.reducedStride + ta) = (j * x.classCount + r) * x.sA + ta * x.dA - x.pA := by
  unfold Axes.entryCoord
  rw [← h.count, ← h.stride]
  ring

theorem contextChannel_ediv (hm : 0 ≤ s.ctx.m.toInt ∧ s.ctx.m.toInt < s.cfg.chMult.toInt) :
    s.contextChannel / s.cfg.chMult.toInt = s.ctx.ic.toInt := by
  rw [State.contextChannel, add_comm, Int.add_mul_ediv_right _ _ (by omega), Int.ediv_eq_zero_of_lt hm.1 hm.2,
    zero_add]

/-- With the window resident, the ring filled and the kernel staged, an accumulator of the tile is the sum of
REF at the output it belongs to. -/
theorem Inv.tapSum_eq_axisSum (h : Inv s) (hring : RingHolds s) (hstaged : StagingHolds s)
    (hpre : macTilePre n s = none) (hwin : s.windowMisses n = none) {t w : Int} (ht : 0 ≤ t ∧ t < n)
    (hw : 0 ≤ w ∧ w < s.cfg.axes.outC) :
    s.tapSum t w = axisSum s.cfg s.mem s.contextChannel
      ((s.ctx.j0.toInt + t) * s.cfg.axes.classCount + s.ctx.res.toInt) w := by
  obtain ⟨ho, hst, hks, -⟩ := (macTilePre_eq_none n s).1 hpre
  obtain ⟨hold, hfed⟩ := (windowMisses_eq_none n s).1 hwin
  have hx := (h.config ho).axes
  have hdec := h.decomposition (h.flags.ring hst)
  refine List.foldl_ext _ _ _ fun acc tap htap => ?_
  obtain ⟨hta, htc⟩ := mem_tapOrder.1 htap
  obtain ⟨hfirst, hlast⟩ := tileEntry_mem hx hdec ht hta
  obtain ⟨hu0, hu1⟩ := hx.tapPosition_lt hw htc
  rw [hdec.rstride, hring _ _ (by omega) (by omega) hu0 hu1, hstaged _ _ hta.1 hta.2 htc.1 htc.2,
    hx.lattice.entryCoord_eq, contextChannel_ediv (h.kernel hks).2.2]

end

/-- Settles O46: the stored accumulator is the tap sum with the bias added, and the tap sum is that of REF. -/
theorem macTileComputesReference : Obligations.MacTileComputesReference := by
  intro s r n hinv hring hstaged hexec hok t w ht hw
  obtain ⟨hpre, hwin⟩ := execMacTile_ready hexec hok
  rw [macTileStoresAccumulators s r n hinv hexec hok t w ht hw, ← axisSum_eq_refSum,
    hinv.tapSum_eq_axisSum hring hstaged hpre hwin ⟨Int.natCast_nonneg t, by omega⟩
      ⟨Int.natCast_nonneg w, hw⟩]
  rfl

end Sys2Proof.Machine

/-! SUPPORT. CONV depends on memory only through the bytes below 2^32: every memory has a canonical one that
reads alike (20_memory.md R100), and from states whose memories read alike CONV runs alike. -/

namespace Sys2Proof.Machine

/-! ### Memories that read alike (20_memory.md R100) -/

/-- Both memories hold the same byte at every address. -/
def ReadsAlike (m m' : Memory) : Prop := ∀ a < Config.addressSpace, m'.read a = m.read a

/-- Every memory has a canonical one with the same bytes: all of them written out again. -/
theorem exists_canonical (m : Memory) : ∃ m', m'.wf = true ∧ ReadsAlike m m' := by
  refine ⟨Memory.empty.writeBytes 0 (m.readBytes 0 Config.addressSpace),
    wf_writeBytes wf_empty (by rw [length_readBytes, Nat.zero_add]), fun a ha => ?_⟩
  have hlen : a < (m.readBytes 0 Config.addressSpace).length := by rwa [length_readBytes]
  have hread := read_writeBytes_at (m := Memory.empty) (a := 0) hlen
  rw [Nat.zero_add] at hread
  rw [hread]
  simp [Memory.readBytes]

section
variable {m m' : Memory} (h : ReadsAlike m m')
include h

theorem ReadsAlike.load_eq : m'.load = m.load :=
  funext fun _ => funext fun _ => load_congr fun _ _ => h _ (wrapAddr_lt _)

theorem ReadsAlike.write {a : Nat} (b : Byte) : ReadsAlike (m.write a b) (m'.write a b) := by
  intro x hx
  by_cases hxa : x = a
  · rw [hxa, read_write_same, read_write_same]
  · rw [read_write_other hxa, read_write_other hxa, h x hx]

theorem ReadsAlike.writeLE (a n : Nat) (v : Int) : ReadsAlike (m.writeLE a n v) (m'.writeLE a n v) := by
  induction n generalizing m m' a v with
  | zero => exact h
  | succ n ih => exact ih (h.write _) _ _

theorem ReadsAlike.applyStores (l : List Store) : ReadsAlike (m.applyStores l) (m'.applyStores l) := by
  induction l generalizing m m' with
  | nil => exact h
  | cons st l ih => exact ih (h.writeLE _ _ _)

end

/-! ### What commands compute from memories that read alike -/

section
variable {s : State} {m' : Memory} (h : ReadsAlike s.mem m')
include h

theorem ReadsAlike.cbFeedStores_eq (n : Nat) : cbFeedStores n { s with mem := m' } = cbFeedStores n s := by
  simp only [cbFeedStores, ringSample, inputElem, h.load_eq]
  rfl

theorem ReadsAlike.kstageStores_eq : kstageStores { s with mem := m' } = kstageStores s := by
  simp only [kstageStores, kernelElem, h.load_eq]
  rfl

theorem ReadsAlike.tapSum_eq (t w : Int) : State.tapSum { s with mem := m' } t w = s.tapSum t w := by
  simp only [State.tapSum, State.windowSample, State.stagedTap, h.load_eq]
  rfl

theorem ReadsAlike.tileBias_eq : State.tileBias { s with mem := m' } = s.tileBias := by
  simp only [State.tileBias, biasElem, h.load_eq]
  rfl

theorem ReadsAlike.macTileStores_eq (n : Nat) :
    macTileStores n { s with mem := m' } = macTileStores n s := by
  simp only [macTileStores, h.tapSum_eq, h.tileBias_eq]
  rfl

theorem ReadsAlike.tileOverflows_eq (n : Nat) :
    State.tileOverflows { s with mem := m' } n = s.tileOverflows n := by
  simp only [State.tileOverflows, h.tapSum_eq, h.tileBias_eq]
  rfl

theorem ReadsAlike.reqWriteStores_eq : reqWriteStores { s with mem := m' } = reqWriteStores s := by
  simp only [reqWriteStores, finishAcc, multElem, shiftElem, loadAcc_eq, h.load_eq]
  rfl

theorem ReadsAlike.checkShiftArray_eq : checkShiftArray s.cfg m' = checkShiftArray s.cfg s.mem := by
  simp only [checkShiftArray, shiftElem, h.load_eq]
  rfl

theorem ReadsAlike.axisSum_eq (oc oa wc : Int) : axisSum s.cfg m' oc oa wc = axisSum s.cfg s.mem oc oa wc := by
  simp only [axisSum, ringSample, inputElem, kernelElem, h.load_eq]

theorem ReadsAlike.biasElem_eq (oc : Int) : biasElem s.cfg m' oc = biasElem s.cfg s.mem oc := by
  simp only [biasElem, h.load_eq]

end

/-! ### CONV from memories that read alike (46_conv_sequencer.md R356) -/

/-- `t` is `s` but for the form of its memory. -/
inductive SameButForm (s : State) : State → Prop where
  /-- The memory of `s` replaced by one that reads alike. -/
  | withMem {m' : Memory} : ReadsAlike s.mem m' → SameButForm s { s with mem := m' }

section
variable {s t : State} (h : SameButForm s t)
include h

theorem SameButForm.writeJ0 (w : Word) : SameButForm (s.writeJ0 w) (t.writeJ0 w) := by
  obtain ⟨hm⟩ := h
  exact .withMem hm

theorem SameButForm.context (r ic m : Nat) :
    SameButForm (convContext r ic m s) (convContext r ic m t) := by
  obtain ⟨hm⟩ := h
  exact .withMem hm

theorem SameButForm.clearStaging : SameButForm (clearStaging s) (clearStaging t) := by
  obtain ⟨hm⟩ := h
  exact .withMem (s := Machine.clearStaging s) (hm.applyStores (ksClearStores s))

theorem SameButForm.initRing : SameButForm (initRing s) (initRing t) := by
  obtain ⟨hm⟩ := h
  exact .withMem (s := Machine.initRing s) (hm.applyStores (cbInitStores s))

theorem SameButForm.stageKernel : SameButForm (stageKernel s) (stageKernel t) := by
  obtain ⟨hm⟩ := h
  simp only [Machine.stageKernel, State.store, hm.kstageStores_eq]
  exact .withMem (s := Machine.stageKernel s) (hm.applyStores _)

theorem SameButForm.feedRing (n : Nat) : SameButForm (feedRing n s) (feedRing n t) := by
  obtain ⟨hm⟩ := h
  simp only [Machine.feedRing, State.store, hm.cbFeedStores_eq]
  exact .withMem (s := Machine.feedRing n s) (hm.applyStores _)

theorem SameButForm.computeTile (n : Nat) : SameButForm (computeTile n s) (computeTile n t) := by
  obtain ⟨hm⟩ := h
  simp only [Machine.computeTile, State.store, hm.macTileStores_eq, hm.tileOverflows_eq]
  exact .withMem (s := Machine.computeTile n s) (hm.applyStores _)

theorem SameButForm.writeTile : SameButForm (writeTile s) (writeTile t) := by
  obtain ⟨hm⟩ := h
  simp only [Machine.writeTile, State.store, hm.reqWriteStores_eq]
  exact .withMem (s := Machine.writeTile s) (hm.applyStores _)

theorem SameButForm.convTile (j0 n : Nat) : SameButForm (convTile j0 n s) (convTile j0 n t) :=
  (((h.writeJ0 _).feedRing n).computeTile n).writeTile

theorem SameButForm.params : t.params = s.params := by obtain ⟨-⟩ := h; rfl

theorem SameButForm.status : t.status = s.status := by obtain ⟨-⟩ := h; rfl

theorem SameButForm.cfg : t.cfg = s.cfg := by obtain ⟨-⟩ := h; rfl

theorem SameButForm.ctx : t.ctx = s.ctx := by obtain ⟨-⟩ := h; rfl

theorem SameButForm.book : t.book = s.book := by obtain ⟨-⟩ := h; rfl

theorem SameButForm.convTiles : SameButForm (convTiles s) (convTiles t) := by
  unfold Machine.convTiles
  rw [h.params, h.book]
  refine List.foldl_rel h fun j0 _ u v huv => ?_
  rw [huv.params]
  exact huv.convTile j0 _

theorem SameButForm.convFilter (r ic m : Nat) :
    SameButForm (convFilter r ic m s) (convFilter r ic m t) := by
  have hinit := (h.context r ic m).initRing
  unfold Machine.convFilter
  dsimp only
  rw [hinit.book]
  split
  · exact hinit
  · exact hinit.stageKernel.convTiles

theorem SameButForm.convLoops : SameButForm (convLoops s) (convLoops t) := by
  unfold Machine.convLoops
  rw [h.book]
  refine List.foldl_rel h fun r _ u v huv => ?_
  rw [huv.cfg]
  refine List.foldl_rel huv fun ic _ u v huv => ?_
  rw [huv.cfg]
  exact List.foldl_rel huv fun m _ u v huv => huv.convFilter r ic m

end

end Sys2Proof.Machine

/-! SUPPORT. A run of CONV with what the ring and the staging region hold, and one of its tiles: the registers
it leaves and the outputs it computes (46_conv_sequencer.md R356). -/

namespace Sys2Proof.Machine

/-! ### What REF depends on (46_conv_sequencer.md R355, 20_memory.md R116) -/

section
variable {p : Config.Params} {c : Cfg} (h : ConfigLegal p c)
include h

/-- A region the engine only reads is outside the footprint of the call. -/
theorem ConfigLegal.not_writable {r : Region} (hr : r ∈ c.readRegions) {a : Nat} (ha : r.has a = true) :
    writableByCall p c a = false := by
  obtain ⟨hout, hscr⟩ := h.readRegion_apart hr ha
  rw [writableByCall, hout, hscr]
  rfl

/-- A bias element lies in the bias region (20_memory.md R110). -/
theorem ConfigLegal.biasElem_in {oc : Int} (hoc : 0 ≤ oc ∧ oc < c.outChannels) :
    (c.biasPtr.toNat : Int) ≤ c.biasAddr oc ∧
      (c.biasAddr oc : Int) + c.precision.esB ≤ c.biasPtr.toNat + c.biasBytes ∧
      c.biasPtr.toNat + c.biasBytes ≤ 2 ^ 32 :=
  arrayElem_in (by cases c.precision <;> decide) hoc
    (h.placed_of_mem (r := regionAt c.biasPtr c.biasBytes) (by simp [Cfg.regions, Cfg.readRegions]))

variable {m m' : Memory} (hm : ∀ a, writableByCall p c a = false → m'.read a = m.read a) {oc : Int}
  (hoc : 0 ≤ oc ∧ oc < c.outChannels)
include hm hoc

theorem ConfigLegal.kernelElem_congr {ta tc : Int} (hta : 0 ≤ ta ∧ ta < c.axes.kA)
    (htc : 0 ≤ tc ∧ tc < c.axes.kC) : kernelElem c m' oc ta tc = kernelElem c m oc ta tc := by
  have hsize : (c.precision.tK.size : Int) = c.precision.esK := rfl
  obtain ⟨a, hload, h0, h1, hspace⟩ := h.kernelTap_in hoc hta htc
  rw [hload, hload]
  exact load_eq_of_read_eq (by omega) fun x hx0 hx1 => hm x (h.not_writable
    (r := regionAt c.kerPtr c.kernelBytes) (by simp [Cfg.readRegions])
    ((regionAt_has_iff _ _ x).2 ⟨by omega, by omega⟩))

theorem ConfigLegal.biasElem_congr : biasElem c m' oc = biasElem c m oc := by
  have hsize : (c.precision.tB.size : Int) = c.precision.esB := rfl
  obtain ⟨h0, h1, hspace⟩ := h.biasElem_in hoc
  exact load_eq_of_read_eq (by omega) fun x hx0 hx1 => hm x (h.not_writable
    (r := regionAt c.biasPtr c.biasBytes) (by simp [Cfg.readRegions])
    ((regionAt_has_iff _ _ x).2 ⟨by omega, by omega⟩))

/-- Memories that differ in the footprint of the call only have the same REF. -/
theorem ConfigLegal.axisSum_congr (oa wc : Int) : axisSum c m' oc oa wc = axisSum c m oc oa wc := by
  have hmult := h.chMult_pos
  have hic : 0 ≤ oc / c.chMult.toInt ∧ oc / c.chMult.toInt < c.inC.toInt :=
    ⟨Int.ediv_nonneg hoc.1 hmult.le, Int.ediv_lt_of_lt_mul hmult hoc.2⟩
  refine List.foldl_ext _ _ _ fun acc tap htap => ?_
  obtain ⟨hta, htc⟩ := mem_tapOrder.1 htap
  rw [h.kernelElem_congr hm hoc hta htc, h.ringSample_congr (fun a ha => hm a (h.not_writable
    (r := regionAt c.inPtr c.inputBytes) (by simp [Cfg.readRegions]) ha)) hic]

end

/-! ### A run of CONV (46_conv_sequencer.md R356) -/

/-- A run of CONV together with what the ring and the staging region hold. -/
structure ConvHolds (s t : State) : Prop extends ConvRun s t where
  /-- Resident entries stand in their slots. -/
  filled : FilledRing t
  /-- The staging region holds the filter. -/
  kernel : StagedKernel t

section
variable {s t : State} (h : ConvHolds s t)
include h

/-- A component command that is ready, and leaves the call open, goes on with the run. -/
theorem ConvHolds.command {i : Instr} (hready : CommandReady i t)
    (hflags : (commandEffect i t).status.callOpen = true ∧ (commandEffect i t).status.decValid = true ∧
      (commandEffect i t).status.kpadValid = true) : ConvHolds s (commandEffect i t) where
  toConvRun := h.toConvRun.next (h.inv.command hready) (commandEffect_keepsSetup i t).params
    (commandEffect_keepsSetup i t).cfg hflags i fun _ ha => h.inv.read_commandEffect hready ha
  filled := h.filled.command hready
  kernel := h.kernel.command hready

theorem ConvHolds.writeJ0 (w : Word) : ConvHolds s (t.writeJ0 w) where
  toConvRun := h.toConvRun.writeJ0 w
  filled := h.filled.moves (.writeJ0 w)
  kernel := h.kernel.moves (.writeJ0 w)

theorem ConvHolds.context (r ic m : Nat) : ConvHolds s (convContext r ic m t) where
  toConvRun := h.toConvRun.context r ic m
  filled := (((h.filled.moves (.writeIc _)).moves (.writeM _)).moves (.writeRes _)).moves (.writeJ0 _)
  kernel := (((h.kernel.moves (.writeIc _)).moves (.writeM _)).moves (.writeRes _)).moves (.writeJ0 _)

end

/-- BEGIN's part of CONV, DECOMP and KS_CLEAR start the run. -/
theorem Inv.convHolds {s : State} (h : Inv s) (hv : callVerdict s.params s.cfg s.mem = .accept) :
    ConvHolds s (clearStaging (decompose (openCall s.close))) := by
  have hopen := h.opens hv
  have hfilled : FilledRing (openCall s.close) := .of_uninitialized hopen rfl
  have hkernel : StagedKernel (openCall s.close) := .of_not_kpad hopen rfl
  exact ⟨h.convRun hv, (hfilled.command (i := .decomp) rfl).command (i := .ksClear) rfl,
    (hkernel.command (i := .decomp) rfl).command (i := .ksClear) rfl⟩

/-! ### The filters and the outputs of a call (10_state.md R61, 45_decomposer.md R333) -/

/-- Class `r`, input channel `ic` and multiplier `m` are ones of the configuration. -/
structure Cfg.HasFilter (c : Cfg) (r ic m : Nat) : Prop where
  /-- The residue class. -/
  resClass : (r : Int) < c.axes.classCount
  /-- The input channel. -/
  channel : (ic : Int) < c.inC.toInt
  /-- The multiplier. -/
  mult : (m : Int) < c.chMult.toInt

theorem Cfg.HasFilter.outChannel {c : Cfg} {r ic m : Nat} (h : c.HasFilter r ic m) :
    0 ≤ ic * c.chMult.toInt + (m : Int) ∧ ic * c.chMult.toInt + (m : Int) < c.outChannels :=
  grid_index_lt ⟨Int.natCast_nonneg ic, h.channel⟩ ⟨Int.natCast_nonneg m, h.mult⟩

/-- The bias add of REF leaves 64 bits at the output with these coordinates (43_compute_loop.md R254). -/
def OutputOverflows (s : State) (oc oa wc : Int) : Prop :=
  biasOverflows s.cfg (axisSum s.cfg s.mem oc oa wc) (biasElem s.cfg s.mem oc) = true

/-- The bias add of some of the outputs `j0` to `j0 + n - 1` of class `r` leaves 64 bits. -/
def SomeOverflows (s : State) (r ic m j0 n : Nat) : Prop :=
  ∃ k w : Nat, k < n ∧ (w : Int) < s.cfg.axes.outC ∧
    OutputOverflows s (ic * s.cfg.chMult.toInt + m) ((j0 + k : Nat) * s.cfg.axes.classCount + r) w

/-- The number of entries the first `j` outputs of a class consume (45_decomposer.md R333). -/
def Axes.entriesOf (x : Axes) (j : Int) : Int := if j = 0 then 0 else (j - 1) * x.reducedStride + x.kA

theorem Axes.subEntries_eq (x : Axes) (r : Int) : x.subEntries r = x.entriesOf (x.subOutputs r) := rfl

theorem Axes.entriesOf_of_pos {x : Axes} {j : Int} (h : 0 < j) :
    x.entriesOf j = (j - 1) * x.reducedStride + x.kA := if_neg h.ne'

theorem Axes.Legal.entriesOf_mono {x : Axes} (hx : x.Legal) {i j : Int} (hi : 0 ≤ i) (hij : i ≤ j) :
    0 ≤ x.entriesOf i ∧ x.entriesOf i ≤ x.entriesOf j := by
  obtain ⟨hk, -⟩ := hx.kernel
  have hrs := hx.lattice.stride_pos
  rcases hi.eq_or_lt with rfl | hpos
  · refine ⟨le_rfl, ?_⟩
    rcases hij.eq_or_lt with rfl | hj
    · exact le_rfl
    · have := Int.mul_nonneg (by omega : 0 ≤ j - 1) (by omega : 0 ≤ x.reducedStride)
      rw [Axes.entriesOf_of_pos hj, Axes.entriesOf, if_pos rfl]
      omega
  · have h0 := Int.mul_nonneg (by omega : 0 ≤ i - 1) (by omega : 0 ≤ x.reducedStride)
    have h1 := Int.mul_le_mul_of_nonneg_right (by omega : i - 1 ≤ j - 1) (by omega : 0 ≤ x.reducedStride)
    rw [Axes.entriesOf_of_pos hpos, Axes.entriesOf_of_pos (hpos.trans_le hij)]
    omega

/-! ### The registers after a tile (46_conv_sequencer.md R356) -/

/-- Every bookkeeping register after the tile of `n` outputs from `j0` of class `r`; with `j0 = n = 0`, but for
the accumulator registers, before the first tile. -/
def Cfg.tileBook (p : Config.Params) (c : Cfg) (r j0 n : Int) : Book where
  decG := BitVec.ofInt 32 c.axes.commonDivisor
  decCount := BitVec.ofInt 32 c.axes.classCount
  decRstride := BitVec.ofInt 32 c.axes.reducedStride
  subNout := BitVec.ofInt 32 (c.axes.subOutputs r)
  subLead := BitVec.ofInt 32 (c.axes.subLead r)
  subNent := BitVec.ofInt 32 (c.axes.subEntries r)
  cbCap := BitVec.ofInt 32 (c.ringCapacity p)
  cbCursor := BitVec.ofInt 32 (c.axes.entriesOf (j0 + n) % c.ringCapacity p)
  cbValid := BitVec.ofInt 32 (c.axes.entriesOf (j0 + n) - j0 * c.axes.reducedStride)
  cbFed := BitVec.ofInt 32 (c.axes.entriesOf (j0 + n))
  cbEntryBytes := BitVec.ofInt 32 c.entryBytes
  cbLine := BitVec.ofInt 32 c.axes.line
  feedAdd := BitVec.ofInt 32 (c.axes.entriesOf (j0 + n) - c.axes.entriesOf j0)
  feedReal := BitVec.ofNat 32
    ((List.range (c.axes.entriesOf (j0 + n) - c.axes.entriesOf j0).toNat).countP fun i : Nat =>
      decide (0 ≤ c.axes.entryCoord r (c.axes.entriesOf j0 + i)) &&
        decide (c.axes.entryCoord r (c.axes.entriesOf j0 + i) < c.axes.inA))
  accJ0 := BitVec.ofInt 32 j0
  accN := BitVec.ofInt 32 n
  layCb := BitVec.ofInt 32 (Cfg.offCb p)
  layKs := BitVec.ofInt 32 (c.offKs p)
  layAcc := BitVec.ofInt 32 (c.offAcc p)
  layTotal := BitVec.ofInt 32 (c.scratchTotal p)
  layKcpad := BitVec.ofInt 32 (c.kernelLine p)

/-- The context registers of the tile from `j0` (46_conv_sequencer.md R356). -/
def filterCtx (r ic m j0 : Nat) : Ctx :=
  { ic := BitVec.ofNat 32 ic, m := BitVec.ofNat 32 m, res := BitVec.ofNat 32 r, j0 := BitVec.ofNat 32 j0 }

/-- The registers CB_FEED leaves when it moves the window forward to a tile that is not fully fed yet. -/
theorem feedRing_book_forward {n : Nat} {s : State} (hring : RingConsistent s)
    (hback : s.oldestEntry ≤ s.tileStart) (hfit : s.tileNeed n ≤ s.book.cbCap.toInt)
    (hnew : s.book.cbFed.toInt ≤ s.tileStart + s.tileNeed n) :
    (feedRing n s).book = { s.book with
      cbCursor := BitVec.ofInt 32 ((s.tileStart + s.tileNeed n) % s.book.cbCap.toInt)
      cbFed := BitVec.ofInt 32 (s.tileStart + s.tileNeed n)
      cbValid := BitVec.ofInt 32 (s.tileStart + s.tileNeed n - s.tileStart)
      feedAdd := BitVec.ofInt 32 (s.tileStart + s.tileNeed n - s.book.cbFed.toInt)
      feedReal := BitVec.ofNat 32
        ((List.range (s.tileStart + s.tileNeed n - s.book.cbFed.toInt).toNat).countP fun i : Nat =>
          decide (0 ≤ s.cfg.axes.entryCoord s.ctx.res.toInt (s.book.cbFed.toInt + i)) &&
            decide (s.cfg.axes.entryCoord s.ctx.res.toInt (s.book.cbFed.toInt + i) < s.cfg.axes.inA)) } := by
  have hcount : s.feedCount n = s.tileStart + s.tileNeed n - s.book.cbFed.toInt := by
    rw [State.feedCount, max_eq_right (by omega)]
  have hfed : s.book.cbFed.toInt + s.feedCount n = s.tileStart + s.tileNeed n := by omega
  have hkeep : s.feedKeepFrom n = s.tileStart := by
    rw [State.feedKeepFrom, hfed]
    omega
  have hslot : s.feedSlot (s.feedCount n) = (s.tileStart + s.tileNeed n) % s.book.cbCap.toInt := by
    rw [feedSlot_eq hring, hfed]
  simp only [feedRing, State.feedReal, State.feedCoord]
  rw [hslot, hfed, hkeep, hcount]
  rfl

/-! ### One tile (46_conv_sequencer.md R356) -/

/-- A run inside the filter (`r`, `ic`, `m`) whose first `done` outputs are computed. -/
structure TilesDone (s : State) (r ic m done : Nat) (t : State) : Prop extends ConvHolds s t where
  /-- The ring is initialised. -/
  ring : t.status.cbState ≠ .uninitialized
  /-- The kernel is staged. -/
  staged : t.status.ksValid = true
  /-- The context names the filter. -/
  ctx : t.ctx = { filterCtx r ic m 0 with j0 := t.ctx.j0 }
  /-- The ring is fed as far as the outputs need. -/
  book : t.book = { s.cfg.tileBook s.params r done 0 with
    cbValid := t.book.cbValid, feedAdd := t.book.feedAdd, feedReal := t.book.feedReal
    accJ0 := t.book.accJ0, accN := t.book.accN }
  /-- The window starts no later than the next tile. -/
  oldest : t.oldestEntry ≤ done * s.cfg.axes.reducedStride

/-- What a tile of `n` outputs leaves: the run goes on, its registers, and ACC_OVF. -/
structure TileLeaves (s : State) (r ic m j0 n : Nat) (t u : State) : Prop where
  /-- The run goes on. -/
  run : TilesDone s r ic m (j0 + n) u
  /-- The context registers. -/
  ctx : u.ctx = filterCtx r ic m j0
  /-- The bookkeeping registers. -/
  book : u.book = s.cfg.tileBook s.params r j0 n
  /-- ACC_OVF is added if a bias add of the tile leaves 64 bits. -/
  ovf : u.status.accOvf = true ↔ t.status.accOvf = true ∨ SomeOverflows s r ic m j0 n

section
variable {s t : State} {r ic m done n : Nat}

theorem ConvRun.axes (h : ConvRun s t) : s.cfg.axes.Legal := h.cfg ▸ h.callOpen.config.axes

theorem ConvRun.toInt_resClass (h : ConvRun s t) (hr : (r : Int) < s.cfg.axes.classCount) :
    (BitVec.ofNat 32 r).toInt = r :=
  toInt_ofNat_of_le (hr.le.trans (h.decCount ▸ toInt_le_countMax _))

theorem ConvRun.subOutputs_isCount (h : ConvRun s t) (r : Nat) : IsCount (s.cfg.axes.subOutputs r) := by
  have hx := h.axes
  have hout : s.cfg.axes.outA ≤ Config.countMax := by
    unfold Cfg.axes
    split <;> exact toInt_le_countMax _
  exact ⟨hx.subOutputs_nonneg r, (hx.subOutputs_le (Int.natCast_nonneg r)).trans hout⟩

/-- The tile that comes next: its context, and the preconditions of CB_FEED and MAC_TILE. -/
theorem TilesDone.tile_ready (h : TilesDone s r ic m done t) (hn : 1 ≤ n ∧ n ≤ s.params.rIter)
    (hplace : (done + n : Int) ≤ s.cfg.axes.subOutputs r) :
    (BitVec.ofNat 32 done).toInt = done ∧ cbFeedPre n (t.writeJ0 (BitVec.ofNat 32 done)) = none ∧
      macTilePre n (feedRing n (t.writeJ0 (BitVec.ofNat 32 done))) = none := by
  have hcount := h.subOutputs_isCount r
  have hnout : t.book.subNout.toInt = s.cfg.axes.subOutputs r := by
    rw [h.book]
    exact toInt_ofInt_of_isCount hcount
  have hj0 : (BitVec.ofNat 32 done).toInt = done := toInt_ofNat_of_le (by have := hcount.2; omega)
  have hsize : 1 ≤ n ∧ n ≤ t.params.rIter := by rw [h.params]; exact hn
  have hplace' : 0 ≤ (BitVec.ofNat 32 done).toInt ∧
      (BitVec.ofNat 32 done).toInt + n ≤ t.book.subNout.toInt := by
    rw [hj0, hnout]
    exact ⟨Int.natCast_nonneg done, hplace⟩
  exact ⟨hj0, (cbFeedPre_eq_none n _).2 ⟨h.flags.1, h.ring, hsize, hplace'⟩,
    (macTilePre_eq_none n _).2 ⟨h.flags.1, nofun, h.staged, hsize, hplace'⟩⟩

/-- The tile that comes next in terms of the axes: it starts no earlier than the window, fits into the ring,
and is not fully fed yet. -/
structure NextTile (s : State) (done n : Nat) (t : State) : Prop where
  /-- `start` -/
  start : t.tileStart = done * s.cfg.axes.reducedStride
  /-- The last entry. -/
  stop : t.tileStart + t.tileNeed n = s.cfg.axes.entriesOf (done + n)
  /-- `CB_FED` -/
  fed : t.book.cbFed.toInt = s.cfg.axes.entriesOf done
  /-- The window starts no later. -/
  back : t.oldestEntry ≤ t.tileStart
  /-- The tile fits into the ring. -/
  fit : t.tileNeed n ≤ t.book.cbCap.toInt
  /-- No entry past the tile's last is fed. -/
  new : t.book.cbFed.toInt ≤ t.tileStart + t.tileNeed n

theorem TilesDone.nextTile (h : TilesDone s r ic m done t)
    (hn : 1 ≤ n ∧ n ≤ s.params.rIter) (hplace : (done + n : Int) ≤ s.cfg.axes.subOutputs r) :
    NextTile s done n (t.writeJ0 (BitVec.ofNat 32 done)) := by
  have hx := h.axes
  have hdec := h.inv.decomposition h.flags.2.1
  have hrs : t.book.decRstride.toInt = s.cfg.axes.reducedStride := by rw [hdec.rstride, h.cfg]
  have hj0 := (h.tile_ready hn hplace).1
  have hsub : s.cfg.axes.subEntries r ≤ Config.countMax :=
    (hx.subEntries_le (Int.natCast_nonneg r)).trans (h.cfg ▸ h.callOpen.fits.spanA)
  have hmono := hx.entriesOf_mono (Int.natCast_nonneg done) (by omega : (done : Int) ≤ done + n)
  have hend : s.cfg.axes.entriesOf (done + n) ≤ s.cfg.axes.subEntries r :=
    (hx.entriesOf_mono (by omega) hplace).2
  have hfed : t.book.cbFed.toInt = s.cfg.axes.entriesOf done := by
    rw [h.book]
    simp only [Cfg.tileBook, add_zero]
    exact toInt_ofInt_of_isCount ⟨hmono.1, by omega⟩
  have hstart : (t.writeJ0 (BitVec.ofNat 32 done)).tileStart = done * s.cfg.axes.reducedStride := by
    rw [← hrs, ← hj0]
    rfl
  have hneed : (t.writeJ0 (BitVec.ofNat 32 done)).tileNeed n =
      s.cfg.axes.kA + ((n : Int) - 1) * s.cfg.axes.reducedStride := by
    rw [← hrs, ← h.cfg]
    rfl
  have hstop : (t.writeJ0 (BitVec.ofNat 32 done)).tileStart +
      (t.writeJ0 (BitVec.ofNat 32 done)).tileNeed n = s.cfg.axes.entriesOf (done + n) := by
    rw [hstart, hneed, Axes.entriesOf_of_pos (by omega)]
    ring
  refine ⟨hstart, hstop, hfed, ?_, ?_, ?_⟩
  · rw [hstart]
    exact h.oldest
  · exact (h.toConvRun.writeJ0 _).callOpen.tileNeed_le_cap
      ((h.toConvRun.writeJ0 _).inv.decomposition h.flags.2.1) (by rw [writeJ0_params, h.params]; exact hn)
  · rw [hstop, writeJ0_book, hfed]
    exact hmono.2

/-- The registers after the next tile is fed, but for those of the accumulators. -/
theorem TilesDone.feedRing_book (h : TilesDone s r ic m done t) (hr : (r : Int) < s.cfg.axes.classCount)
    (hn : 1 ≤ n ∧ n ≤ s.params.rIter) (hplace : (done + n : Int) ≤ s.cfg.axes.subOutputs r) :
    (feedRing n (t.writeJ0 (BitVec.ofNat 32 done))).book = { s.cfg.tileBook s.params r done n with
      accJ0 := t.book.accJ0, accN := t.book.accN } := by
  have hnext := h.nextTile hn hplace
  have hcap : t.book.cbCap.toInt = s.cfg.ringCapacity s.params := by
    rw [h.callOpen.layout.cap, h.cfg, h.params]
  have hres : (t.writeJ0 (BitVec.ofNat 32 done)).ctx.res.toInt = r := by
    rw [show (t.writeJ0 (BitVec.ofNat 32 done)).ctx.res = BitVec.ofNat 32 r by
      rw [writeJ0_ctx, h.ctx]; rfl, h.toInt_resClass hr]
  have hring := (h.toConvRun.writeJ0 (BitVec.ofNat 32 done)).inv.ring h.ring
  rw [feedRing_book_forward hring hnext.back hnext.fit hnext.new,
    hnext.stop, hnext.start, hnext.fed, hres, writeJ0_book, writeJ0_cfg, hcap, h.cfg, h.book]
  simp only [Cfg.tileBook]

theorem NextTile.window_resident (hnext : NextTile s done n t) (hpre : cbFeedPre n t = none) (h : Inv t) :
    (feedRing n t).windowMisses n = none := by
  obtain ⟨-, hst, hn, hplace⟩ := (cbFeedPre_eq_none n t).1 hpre
  have hneed := (h.feedFacts hst hn hplace).need
  have hfirst := (h.tileEntry_resident hpre hnext.back le_rfl (by omega)).1
  have hlast := (h.tileEntry_resident hpre hnext.back (nn := t.tileStart + t.tileNeed n - 1) (by omega)
    (by omega)).2
  exact (windowMisses_eq_none n _).2
    ⟨hfirst, show t.tileStart + t.tileNeed n ≤ (feedRing n t).book.cbFed.toInt by omega⟩

/-- A tile of the run computes the bias adds of REF at its outputs. -/
theorem ConvHolds.tileOverflows_iff (h : ConvHolds s t) (hf : s.cfg.HasFilter r ic m)
    (hpre : macTilePre n t = none) (hwin : t.windowMisses n = none) (hctx : t.ctx = filterCtx r ic m done)
    (hdone : (BitVec.ofNat 32 done).toInt = done) :
    t.tileOverflows n = true ↔ SomeOverflows s r ic m done n := by
  obtain ⟨-, hst, hks, -⟩ := (macTilePre_eq_none n t).1 hpre
  have hchan : t.contextChannel = ic * s.cfg.chMult.toInt + m := by
    rw [State.contextChannel, hctx, h.cfg]
    simp only [filterCtx]
    rw [toInt_ofNat_of_le (hf.channel.le.trans (toInt_le_countMax _)),
      toInt_ofNat_of_le (hf.mult.le.trans (toInt_le_countMax _))]
  have hlegal : ConfigLegal s.params s.cfg := h.params ▸ h.cfg ▸ h.callOpen.config
  have hbias : t.tileBias = biasElem s.cfg s.mem (ic * s.cfg.chMult.toInt + m) := by
    rw [State.tileBias, hchan, h.cfg, hlegal.biasElem_congr h.frame hf.outChannel]
  have hsum : ∀ k w : Nat, k < n → (w : Int) < s.cfg.axes.outC → t.tapSum k w =
      axisSum s.cfg s.mem (ic * s.cfg.chMult.toInt + m)
        ((done + k : Nat) * s.cfg.axes.classCount + r) w := by
    intro k w hk hw
    rw [h.inv.tapSum_eq_axisSum (h.filled.holds hst) (h.kernel.taps hks) hpre hwin
      ⟨Int.natCast_nonneg k, by omega⟩ ⟨Int.natCast_nonneg w, by rwa [h.cfg]⟩, hchan, h.cfg,
      hlegal.axisSum_congr h.frame hf.outChannel, hctx]
    simp only [filterCtx]
    rw [hdone, h.toInt_resClass hf.resClass, Nat.cast_add]
  rw [Machine.tileOverflows_iff, h.cfg, hbias]
  refine exists_congr fun k => exists_congr fun w => and_congr_right fun hk => and_congr_right fun hw => ?_
  rw [hsum k w hk hw]
  rfl

/-- One tile of CONV: feed, compute, requantize. -/
theorem TilesDone.convTile (h : TilesDone s r ic m done t) (hf : s.cfg.HasFilter r ic m)
    (hn : 1 ≤ n ∧ n ≤ s.params.rIter) (hplace : (done + n : Int) ≤ s.cfg.axes.subOutputs r) :
    TileLeaves s r ic m done n t (convTile done n t) := by
  obtain ⟨hdone, hfeed, hmac⟩ := h.tile_ready hn hplace
  have hnext := h.nextTile hn hplace
  have hset := h.toConvHolds.writeJ0 (BitVec.ofNat 32 done)
  have hwin := hnext.window_resident hfeed hset.inv
  have hfed : ConvHolds s (feedRing n (t.writeJ0 (BitVec.ofNat 32 done))) :=
    hset.command (i := .cbFeed n) hfeed h.flags
  have hcomputed : ConvHolds s (computeTile n (feedRing n (t.writeJ0 (BitVec.ofNat 32 done)))) :=
    hfed.command (i := .macTile n) ⟨hmac, hwin⟩ h.flags
  have hwritten : ConvHolds s (Machine.convTile done n t) :=
    hcomputed.command (i := .reqWrite) ((reqWritePre_eq_none _).2 ⟨h.flags.1, rfl⟩) h.flags
  have hctx : (t.writeJ0 (BitVec.ofNat 32 done)).ctx = filterCtx r ic m done := by
    rw [writeJ0_ctx, h.ctx]
    rfl
  have hbook : (Machine.convTile done n t).book = s.cfg.tileBook s.params r done n := by
    have hcompute : (Machine.convTile done n t).book =
        { (feedRing n (t.writeJ0 (BitVec.ofNat 32 done))).book with
          accJ0 := BitVec.ofNat 32 done, accN := BitVec.ofNat 32 n } := rfl
    rw [hcompute, h.feedRing_book hf.resClass hn hplace]
    simp only [Cfg.tileBook, BitVec.ofInt_natCast]
  refine ⟨⟨hwritten, nofun, h.staged, ?_, ?_, ?_⟩, hctx, hbook, ?_⟩
  · rw [show (Machine.convTile done n t).ctx = (t.writeJ0 (BitVec.ofNat 32 done)).ctx from rfl, hctx]
    rfl
  · rw [hbook]
    simp only [Cfg.tileBook, Nat.cast_add, add_zero]
  · have hold : (Machine.convTile done n t).oldestEntry ≤
        (t.writeJ0 (BitVec.ofNat 32 done)).tileStart := ((windowMisses_eq_none n _).1 hwin).1
    have hx := h.axes
    have hgrow : (done : Int) * s.cfg.axes.reducedStride ≤ (done + n : Nat) * s.cfg.axes.reducedStride :=
      Int.mul_le_mul_of_nonneg_right (by omega) (by linarith [hx.lattice.stride_pos])
    rw [hnext.start] at hold
    exact hold.trans hgrow
  · rw [← hfed.tileOverflows_iff hf hmac hwin hctx hdone]
    exact Bool.or_eq_true_iff

end

end Sys2Proof.Machine

/-! SUPPORT. The loops of CONV (46_conv_sequencer.md R356): the registers after a filter, after the last filter,
and the outputs whose bias adds set ACC_OVF. -/

namespace Sys2Proof.Machine

/-! ### Loops over a range -/

section
variable {σ : Type} {P Q : Nat → σ → Prop} {flag : σ → Prop} {E : Nat → Prop} {f : σ → Nat → σ}
  {n : Nat} {t : σ}

/-- A loop along an invariant, with what its last round leaves. -/
theorem foldl_range_last (hstep : ∀ k < n, ∀ u, P k u → P (k + 1) (f u k) ∧ Q k (f u k)) (ht : P 0 t) :
    P n ((List.range n).foldl f t) ∧ (0 < n → Q (n - 1) ((List.range n).foldl f t)) := by
  induction n with
  | zero => exact ⟨ht, fun hn => absurd hn (lt_irrefl 0)⟩
  | succ n ih =>
    rw [List.range_succ, List.foldl_append]
    have hlast := hstep n (by omega) _ (ih fun k hk => hstep k (by omega)).1
    exact ⟨hlast.1, fun _ => hlast.2⟩

/-- The same where round `k` adds a flag if `E k`. -/
theorem foldl_range_flag (hn : 0 < n)
    (hstep : ∀ k < n, ∀ u, P k u → P (k + 1) (f u k) ∧ Q k (f u k) ∧ (flag (f u k) ↔ flag u ∨ E k))
    (ht : P 0 t) :
    P n ((List.range n).foldl f t) ∧ Q (n - 1) ((List.range n).foldl f t) ∧
      (flag ((List.range n).foldl f t) ↔ flag t ∨ ∃ k < n, E k) := by
  have hloop := foldl_range_last (n := n) (f := f) (t := t) (Q := Q)
    (P := fun k u => P k u ∧ (flag u ↔ flag t ∨ ∃ j < k, E j)) ?_ ⟨ht, by simp⟩
  · exact ⟨hloop.1.1, hloop.2 hn, hloop.1.2⟩
  · intro k hk u hu
    obtain ⟨hP, hQ, hflag⟩ := hstep k hk u hu.1
    refine ⟨⟨hP, ?_⟩, hQ⟩
    rw [hflag, hu.2, or_assoc]
    simp only [Nat.lt_succ_iff_lt_or_eq, or_and_right, exists_or, exists_eq_left]

end

/-! ### The tiles of a filter (46_conv_sequencer.md R356) -/

/-- The first output of the last tile of class `r`; 0 in a class without outputs. -/
def Cfg.lastTile (p : Config.Params) (c : Cfg) (r : Nat) : Nat :=
  ((c.axes.subOutputs r).toNat - 1) / p.rIter * p.rIter

section
variable {s t u : State} {r ic m : Nat}

theorem someOverflows_add (s : State) (r ic m j0 n n' : Nat) :
    SomeOverflows s r ic m j0 (n + n') ↔
      SomeOverflows s r ic m j0 n ∨ SomeOverflows s r ic m (j0 + n) n' := by
  constructor
  · rintro ⟨k, w, hk, hw, hovf⟩
    rcases Nat.lt_or_ge k n with hlt | hge
    · exact .inl ⟨k, w, hlt, hw, hovf⟩
    · exact .inr ⟨k - n, w, by omega, hw, by rwa [show j0 + n + (k - n) = j0 + k by omega]⟩
  · rintro (⟨k, w, hk, hw, hovf⟩ | ⟨k, w, hk, hw, hovf⟩)
    · exact ⟨k, w, by omega, hw, hovf⟩
    · exact ⟨n + k, w, by omega, hw, by rwa [← Nat.add_assoc]⟩

theorem not_someOverflows_zero (s : State) (r ic m j0 : Nat) : ¬SomeOverflows s r ic m j0 0 := by
  rintro ⟨k, w, hk, -⟩
  exact absurd hk (Nat.not_lt_zero k)

/-- The tiles of a class of `nout` outputs as a loop over their numbers. -/
theorem convTiles_eq (t : State) : convTiles t =
    (List.range ((t.book.subNout.toInt.toNat + t.params.rIter - 1) / t.params.rIter)).foldl (fun u k =>
      convTile (k * t.params.rIter) (min u.params.rIter (t.book.subNout.toInt.toNat - k * t.params.rIter)) u)
      t := by
  unfold convTiles tileStarts
  rw [List.foldl_map]

/-- What the tiles of a filter leave: the registers of the last one, and ACC_OVF if a bias add of any leaves 64
bits. -/
theorem TilesDone.convTiles (h : TilesDone s r ic m 0 t) (hf : s.cfg.HasFilter r ic m)
    (hpos : 0 < s.cfg.axes.subOutputs r) :
    ConvHolds s (convTiles t) ∧ (convTiles t).ctx = filterCtx r ic m (s.cfg.lastTile s.params r) ∧
      (convTiles t).book = s.cfg.tileBook s.params r (s.cfg.lastTile s.params r)
        (s.cfg.axes.subOutputs r - s.cfg.lastTile s.params r) ∧
      ((convTiles t).status.accOvf = true ↔
        t.status.accOvf = true ∨ SomeOverflows s r ic m 0 (s.cfg.axes.subOutputs r).toNat) := by
  obtain ⟨nout, hnout⟩ : ∃ nout : Nat, s.cfg.axes.subOutputs r = nout :=
    ⟨_, (Int.toNat_of_nonneg hpos.le).symm⟩
  have hR : 2 ≤ s.params.rIter := h.params ▸ ((params_ok_iff _).1 h.inv.params).1
  have hword : t.book.subNout.toInt = nout := by
    rw [h.book, ← hnout]
    exact toInt_ofInt_of_isCount (h.subOutputs_isCount r)
  have hcount : (nout + s.params.rIter - 1) / s.params.rIter = (nout - 1) / s.params.rIter + 1 := by
    rw [show nout + s.params.rIter - 1 = nout - 1 + s.params.rIter by omega, Nat.add_div_right _ (by omega)]
  have hlast : (nout - 1) / s.params.rIter * s.params.rIter < nout := by
    have := Nat.div_mul_le_self (nout - 1) s.params.rIter
    omega
  have hend : nout ≤ ((nout - 1) / s.params.rIter + 1) * s.params.rIter := by
    have := Nat.lt_mul_div_succ (nout - 1) (by omega : 0 < s.params.rIter)
    rw [mul_comm] at this
    omega
  rw [convTiles_eq, h.params, hword, Int.toNat_natCast, hcount, hnout, Int.toNat_natCast, Cfg.lastTile, hnout,
    Int.toNat_natCast]
  have hloop := foldl_range_last (n := (nout - 1) / s.params.rIter + 1) (t := t)
    (f := fun u k => Machine.convTile (k * s.params.rIter) (min u.params.rIter (nout - k * s.params.rIter)) u)
    (P := fun k u => TilesDone s r ic m (min nout (k * s.params.rIter)) u ∧
      (u.status.accOvf = true ↔
        t.status.accOvf = true ∨ SomeOverflows s r ic m 0 (min nout (k * s.params.rIter))))
    (Q := fun k u => u.ctx = filterCtx r ic m (k * s.params.rIter) ∧
      u.book = s.cfg.tileBook s.params r (k * s.params.rIter : Nat)
        (min s.params.rIter (nout - k * s.params.rIter) : Nat)) ?_ ?_
  · obtain ⟨⟨hrun, hovf⟩, hq⟩ := hloop
    obtain ⟨hctx, hbook⟩ := hq (Nat.succ_pos _)
    rw [min_eq_left hend] at hovf
    rw [Nat.add_sub_cancel] at hctx hbook
    rw [min_eq_right (by rw [Nat.succ_mul] at hend; omega), Nat.cast_sub hlast.le] at hbook
    exact ⟨hrun.toConvHolds, hctx, hbook, hovf⟩
  · rintro k hk u ⟨hu, hovf⟩
    have hk' : k * s.params.rIter < nout :=
      (Nat.mul_le_mul_right _ (Nat.lt_succ_iff.1 hk)).trans_lt hlast
    rw [min_eq_right hk'.le] at hu hovf
    have htile := hu.convTile (n := min s.params.rIter (nout - k * s.params.rIter)) hf
      ⟨by omega, min_le_left _ _⟩ (by rw [hnout]; omega)
    have hnext : k * s.params.rIter + min s.params.rIter (nout - k * s.params.rIter) =
        min nout ((k + 1) * s.params.rIter) := by
      rw [Nat.succ_mul]
      omega
    rw [hu.params, ← hnext]
    exact ⟨⟨htile.run, by rw [htile.ovf, hovf, or_assoc, someOverflows_add, Nat.zero_add]⟩, htile.ctx,
      htile.book⟩
  · rw [Nat.zero_mul, Nat.min_zero]
    exact ⟨h, by simp only [not_someOverflows_zero, or_false]⟩

end

/-! ### One filter (46_conv_sequencer.md R356, 42_kernel_stager.md R235) -/

/-- The class that the accumulator registers are of once class `r` is done: the last one with outputs. -/
def Cfg.computedClass (c : Cfg) (r : Nat) : Nat := min (r + 1) c.axes.outA.toNat - 1

/-- The accumulator registers are those of the last tile of class `r`. -/
def AccOfClass (s : State) (r : Nat) (t : State) : Prop :=
  t.book.accJ0 = BitVec.ofInt 32 (s.cfg.lastTile s.params r) ∧
    t.book.accN = BitVec.ofInt 32 (s.cfg.axes.subOutputs r - s.cfg.lastTile s.params r)

/-- A run that is at a filter of class `r`: past the last class with outputs the accumulator registers keep
what that class left. -/
structure AtClass (s : State) (r : Nat) (t : State) : Prop extends ConvHolds s t where
  /-- Past the last class with outputs. -/
  acc : s.cfg.axes.outA ≤ r → AccOfClass s (s.cfg.axes.outA.toNat - 1) t

/-- The registers after the filter (`r`, `ic`, `m`). -/
structure FilterDone (s : State) (r ic m : Nat) (t : State) : Prop extends ConvHolds s t where
  /-- The context registers. -/
  ctx : t.ctx = filterCtx r ic m (s.cfg.lastTile s.params r)
  /-- The bookkeeping registers but for those of the accumulators. -/
  book : t.book = { s.cfg.tileBook s.params r (s.cfg.lastTile s.params r)
    (s.cfg.axes.subOutputs r - s.cfg.lastTile s.params r) with
    accJ0 := t.book.accJ0, accN := t.book.accN }
  /-- The accumulator registers. -/
  acc : AccOfClass s (s.cfg.computedClass r) t

/-- From `t` to the end `u` of the filter (`r`, `ic`, `m`) ACC_OVF is added exactly if `E`. -/
structure FilterLeaves (s : State) (r ic m : Nat) (E : Prop) (t u : State) : Prop
    extends FilterDone s r ic m u where
  /-- ACC_OVF. -/
  ovf : u.status.accOvf = true ↔ t.status.accOvf = true ∨ E

section
variable {s t : State} {r ic m : Nat}

theorem FilterDone.atClass (h : FilterDone s r ic m t) {r' : Nat} (hr : r' ≤ r + 1) : AtClass s r' t where
  toConvHolds := h.toConvHolds
  acc hout := by
    have := h.acc
    rwa [Cfg.computedClass, min_eq_right (by omega)] at this

/-- What a round of a loop of CONV gives: the run is at a filter again, and the filter's end. -/
theorem FilterLeaves.round {E : Prop} {u : State} (h : FilterLeaves s r ic m E t u) {r' : Nat}
    (hr : r' ≤ r + 1) : AtClass s r' u ∧ FilterDone s r ic m u ∧
      (u.status.accOvf = true ↔ t.status.accOvf = true ∨ E) :=
  ⟨h.atClass hr, h.toFilterDone, h.ovf⟩

/-- The context of a filter meets the preconditions of CB_INIT and KSTAGE (41_circular_buffer.md R192,
42_kernel_stager.md R232). -/
theorem ConvRun.filter_ready (h : ConvRun s t) (hf : s.cfg.HasFilter r ic m) :
    cbInitPre (convContext r ic m t) = none ∧ kstagePre (Machine.initRing (convContext r ic m t)) = none := by
  have hic : 0 ≤ (BitVec.ofNat 32 ic).toInt ∧ (BitVec.ofNat 32 ic).toInt < t.cfg.inC.toInt := by
    rw [toInt_ofNat_of_le (hf.channel.le.trans (toInt_le_countMax _)), h.cfg]
    exact ⟨Int.natCast_nonneg ic, hf.channel⟩
  have hm : 0 ≤ (BitVec.ofNat 32 m).toInt ∧ (BitVec.ofNat 32 m).toInt < t.cfg.chMult.toInt := by
    rw [toInt_ofNat_of_le (hf.mult.le.trans (toInt_le_countMax _)), h.cfg]
    exact ⟨Int.natCast_nonneg m, hf.mult⟩
  have hr : 0 ≤ (BitVec.ofNat 32 r).toInt ∧ (BitVec.ofNat 32 r).toInt < t.book.decCount.toInt := by
    rw [h.toInt_resClass hf.resClass, h.decCount]
    exact ⟨Int.natCast_nonneg r, hf.resClass⟩
  exact ⟨(cbInitPre_eq_none _).2 ⟨h.flags.1, h.flags.2.1, hic, hr⟩,
    (kstagePre_eq_none _).2 ⟨h.flags.1, h.flags.2.2, hic, hm⟩⟩

theorem eq_ofInt_of_toInt {w : Word} {v : Int} (h : w.toInt = v) : w = BitVec.ofInt 32 v := by
  rw [← h, BitVec.ofInt_toInt]

/-- The registers CB_INIT leaves in a run. -/
theorem ConvRun.initRing_book (h : ConvRun s t) (hr : (r : Int) < s.cfg.axes.classCount) :
    (Machine.initRing (convContext r ic m t)).book = { s.cfg.tileBook s.params r 0 0 with
      accJ0 := t.book.accJ0, accN := t.book.accN } := by
  obtain ⟨l1, l2, l3, l4, l5, l6, l7, l8⟩ := h.callOpen.layout
  obtain ⟨d1, d2, d3⟩ := h.inv.decomposition h.flags.2.1
  rw [h.cfg] at d1 d2 d3 l1 l2 l3 l5 l6 l7 l8
  rw [h.params] at l1 l4 l5 l6 l7 l8
  have hres : (convContext r ic m t).ctx.res.toInt = r := h.toInt_resClass hr
  have hcfg : (convContext r ic m t).cfg = s.cfg := h.cfg
  have hbook : (convContext r ic m t).book = t.book := rfl
  simp only [Machine.initRing, hres, hcfg, hbook, Cfg.tileBook, Axes.entriesOf, if_true, add_zero,
    zero_mul, sub_zero, Int.zero_emod, eq_ofInt_of_toInt l1, eq_ofInt_of_toInt l2, eq_ofInt_of_toInt l3,
    eq_ofInt_of_toInt l4, eq_ofInt_of_toInt l5, eq_ofInt_of_toInt l6, eq_ofInt_of_toInt l7, eq_ofInt_of_toInt l8,
    eq_ofInt_of_toInt d1, eq_ofInt_of_toInt d2, eq_ofInt_of_toInt d3]
  rfl

end

end Sys2Proof.Machine

/-! SUPPORT. The proof that CONV completes (O58): its loops over classes, channels and multipliers leave the
registers of the last filter, and ACC_OVF tells of every output. -/

namespace Sys2Proof.Machine

section
variable {s t : State} {r ic m : Nat}

/-! ### One filter, with and without outputs (46_conv_sequencer.md R356) -/

theorem Axes.Legal.subOutputs_pos_iff {x : Axes} (hx : x.Legal) (r : Int) : 0 < x.subOutputs r ↔ r < x.outA := by
  rw [hx.lt_subOutputs_iff r le_rfl, zero_mul, zero_add]

theorem ConvHolds.primed (h : ConvHolds s t) (hf : s.cfg.HasFilter r ic m) :
    ConvHolds s (initRing (convContext r ic m t)) :=
  (h.context r ic m).command (i := .cbInit) (h.filter_ready hf).1 h.flags

/-- The flags and registers with which the tiles of a filter begin. -/
theorem ConvHolds.tilesDone_zero (h : ConvHolds s t) (hf : s.cfg.HasFilter r ic m) :
    TilesDone s r ic m 0 (stageKernel (initRing (convContext r ic m t))) := by
  have hrun : ConvHolds s (stageKernel (initRing (convContext r ic m t))) :=
    (h.primed hf).command (i := .kstage) (h.filter_ready hf).2 h.flags
  refine ⟨hrun, nofun, rfl, rfl, ?_, ?_⟩
  · rw [stageKernel_book, h.initRing_book hf.resClass]
    rfl
  · exact (zero_mul _).ge

/-- A class without outputs computes nothing. -/
theorem ConvHolds.convFilter_empty (h : ConvHolds s t) (hf : s.cfg.HasFilter r ic m)
    (hnone : s.cfg.axes.subOutputs r = 0) :
    convFilter r ic m t = initRing (convContext r ic m t) := by
  have hword : (initRing (convContext r ic m t)).book.subNout = 0 := by
    rw [h.initRing_book hf.resClass]
    simp only [Cfg.tileBook, hnone]
    rfl
  unfold convFilter
  dsimp only
  rw [if_pos hword]

theorem ConvHolds.convFilter_tiles (h : ConvHolds s t) (hf : s.cfg.HasFilter r ic m)
    (hpos : 0 < s.cfg.axes.subOutputs r) :
    convFilter r ic m t = convTiles (stageKernel (initRing (convContext r ic m t))) := by
  have hword : (initRing (convContext r ic m t)).book.subNout ≠ 0 := by
    rw [h.initRing_book hf.resClass]
    intro hzero
    have := toInt_ofInt_of_isCount (h.subOutputs_isCount r)
    rw [show BitVec.ofInt 32 (s.cfg.axes.subOutputs r) = 0 from hzero] at this
    exact hpos.ne this
  unfold convFilter
  dsimp only
  rw [if_neg hword]

/-- One filter of CONV. -/
theorem AtClass.convFilter (h : AtClass s r t) (hf : s.cfg.HasFilter r ic m) :
    FilterLeaves s r ic m (SomeOverflows s r ic m 0 (s.cfg.axes.subOutputs r).toNat) t
      (convFilter r ic m t) := by
  have hx := h.axes
  obtain ⟨hout, -⟩ := hx.output
  rcases (hx.subOutputs_nonneg r).eq_or_lt with hnone | hpos
  · have hpast : s.cfg.axes.outA ≤ r := by
      have := (hx.subOutputs_pos_iff r).not.1 (by omega)
      omega
    have hlast : s.cfg.lastTile s.params r = 0 := by
      rw [Cfg.lastTile, ← hnone, Int.toNat_zero, Nat.zero_sub, Nat.zero_div, Nat.zero_mul]
    have hclass : s.cfg.computedClass r = s.cfg.axes.outA.toNat - 1 := by
      rw [Cfg.computedClass, min_eq_right (by omega)]
    rw [h.convFilter_empty hf hnone.symm]
    refine ⟨⟨h.primed hf, ?_, ?_, ?_⟩, ?_⟩
    · rw [hlast]
      rfl
    · rw [hlast, ← hnone, h.initRing_book hf.resClass]
      rfl
    · rw [hclass]
      exact h.acc hpast
    · rw [← hnone, Int.toNat_zero]
      simp only [not_someOverflows_zero, or_false]
      exact Iff.rfl
  · have hclass : s.cfg.computedClass r = r := by
      have := (hx.subOutputs_pos_iff r).1 hpos
      rw [Cfg.computedClass, min_eq_left (by omega), Nat.add_sub_cancel]
    obtain ⟨hrun, hctx, hbook, hovf⟩ := (h.tilesDone_zero hf).convTiles hf hpos
    rw [h.convFilter_tiles hf hpos]
    refine ⟨⟨hrun, hctx, ?_, ?_⟩, hovf⟩
    · rw [hbook]
    · rw [hclass, AccOfClass, hbook]
      exact ⟨rfl, rfl⟩

/-! ### The loops (46_conv_sequencer.md R356) -/

/-- The multipliers of one input channel. -/
theorem AtClass.multLoop (h : AtClass s r t) (hr : (r : Int) < s.cfg.axes.classCount)
    (hic : (ic : Int) < s.cfg.inC.toInt) :
    FilterLeaves s r ic (s.cfg.chMult.toInt.toNat - 1)
      (∃ m < s.cfg.chMult.toInt.toNat, SomeOverflows s r ic m 0 (s.cfg.axes.subOutputs r).toNat) t
      ((List.range s.cfg.chMult.toInt.toNat).foldl (fun u m => Machine.convFilter r ic m u) t) := by
  have hpos : 0 < s.cfg.chMult.toInt := h.cfg ▸ h.callOpen.config.chMult_pos
  obtain ⟨-, hlast, hovf⟩ := foldl_range_flag (n := s.cfg.chMult.toInt.toNat) (t := t)
    (P := fun _ => AtClass s r) (Q := FilterDone s r ic) (flag := fun u => u.status.accOvf = true)
    (E := fun m => SomeOverflows s r ic m 0 (s.cfg.axes.subOutputs r).toNat)
    (f := fun u m => Machine.convFilter r ic m u) (by omega)
    (fun m hm u hu => (hu.convFilter ⟨hr, hic, by omega⟩).round (by omega)) h
  exact ⟨hlast, hovf⟩

/-- The input channels of one class. -/
theorem AtClass.channelLoop (h : AtClass s r t) (hr : (r : Int) < s.cfg.axes.classCount) :
    FilterLeaves s r (s.cfg.inC.toInt.toNat - 1) (s.cfg.chMult.toInt.toNat - 1)
      (∃ ic < s.cfg.inC.toInt.toNat, ∃ m < s.cfg.chMult.toInt.toNat,
        SomeOverflows s r ic m 0 (s.cfg.axes.subOutputs r).toNat) t
      ((List.range s.cfg.inC.toInt.toNat).foldl (fun u ic =>
        (List.range u.cfg.chMult.toInt.toNat).foldl (fun u m => Machine.convFilter r ic m u) u) t) := by
  have hpos : 0 < s.cfg.inC.toInt := h.cfg ▸ h.callOpen.config.inC_pos
  obtain ⟨-, hlast, hovf⟩ := foldl_range_flag (n := s.cfg.inC.toInt.toNat) (t := t)
    (P := fun _ => AtClass s r) (Q := fun ic => FilterDone s r ic (s.cfg.chMult.toInt.toNat - 1))
    (flag := fun u => u.status.accOvf = true)
    (E := fun ic => ∃ m < s.cfg.chMult.toInt.toNat, SomeOverflows s r ic m 0 (s.cfg.axes.subOutputs r).toNat)
    (f := fun u ic => (List.range u.cfg.chMult.toInt.toNat).foldl (fun u m => Machine.convFilter r ic m u) u)
    (by omega)
    (fun ic hic u hu => by rw [hu.cfg]; exact (hu.multLoop hr (by omega)).round (by omega)) h
  exact ⟨hlast, hovf⟩

/-- All of CONV's filters: the last one's registers, and the overflows of all. -/
theorem ConvHolds.convLoops (h : ConvHolds s t) :
    FilterLeaves s (s.cfg.axes.classCount.toNat - 1) (s.cfg.inC.toInt.toNat - 1)
      (s.cfg.chMult.toInt.toNat - 1)
      (∃ r < s.cfg.axes.classCount.toNat, ∃ ic < s.cfg.inC.toInt.toNat, ∃ m < s.cfg.chMult.toInt.toNat,
        SomeOverflows s r ic m 0 (s.cfg.axes.subOutputs r).toNat) t (convLoops t) := by
  have hpos := h.axes.lattice.count_pos
  obtain ⟨hout, -⟩ := h.axes.output
  unfold Machine.convLoops
  rw [h.decCount]
  obtain ⟨-, hlast, hovf⟩ := foldl_range_flag (n := s.cfg.axes.classCount.toNat) (t := t) (P := AtClass s)
    (Q := fun r => FilterDone s r (s.cfg.inC.toInt.toNat - 1) (s.cfg.chMult.toInt.toNat - 1))
    (flag := fun u => u.status.accOvf = true)
    (E := fun r => ∃ ic < s.cfg.inC.toInt.toNat, ∃ m < s.cfg.chMult.toInt.toNat,
      SomeOverflows s r ic m 0 (s.cfg.axes.subOutputs r).toNat)
    (f := fun u r => (List.range u.cfg.inC.toInt.toNat).foldl (fun u ic =>
      (List.range u.cfg.chMult.toInt.toNat).foldl (fun u m => Machine.convFilter r ic m u) u) u)
    (by omega) (fun r hr u hu => by rw [hu.cfg]; exact (hu.channelLoop (by omega)).round le_rfl)
    ⟨h, fun hle => absurd hle (by omega)⟩
  exact ⟨hlast, hovf⟩

end

/-! ### Every output is one of a tile (10_state.md R61, 45_decomposer.md R333) -/

/-- The outputs of all filters of all classes are the outputs of the call. -/
theorem someOverflows_iff {s : State} (hc : ShapeLegal s.cfg) :
    (∃ r < s.cfg.axes.classCount.toNat, ∃ ic < s.cfg.inC.toInt.toNat, ∃ m < s.cfg.chMult.toInt.toNat,
        SomeOverflows s r ic m 0 (s.cfg.axes.subOutputs r).toNat) ↔
      ∃ oc oa wc : Int, (0 ≤ oc ∧ oc < s.cfg.outChannels) ∧ (0 ≤ oa ∧ oa < s.cfg.axes.outA) ∧
        (0 ≤ wc ∧ wc < s.cfg.axes.outC) ∧ OutputOverflows s oc oa wc := by
  have hx := hc.axes
  have hcount := hx.lattice.count_pos
  obtain ⟨-, -, hmult⟩ := hc.kernel
  constructor
  · rintro ⟨r, hr, ic, hic, m, hm, k, w, hk, hw, hovf⟩
    have hclass : (r : Int) < s.cfg.axes.classCount := by omega
    have hout := (hx.lt_subOutputs_iff r (Int.natCast_nonneg k)).1 (by omega)
    have hk0 := Int.mul_nonneg (Int.natCast_nonneg k) (by omega : 0 ≤ s.cfg.axes.classCount)
    rw [Nat.zero_add] at hovf
    exact ⟨_, _, _, (Cfg.HasFilter.mk hclass (by omega) (by omega)).outChannel, ⟨by omega, hout⟩,
      ⟨Int.natCast_nonneg w, hw⟩, hovf⟩
  · rintro ⟨oc, oa, wc, hoc, hoa, hwc, hovf⟩
    have hr := Int.emod_nonneg oa (by omega : s.cfg.axes.classCount ≠ 0)
    have hr' := Int.emod_lt_of_pos oa (by omega : 0 < s.cfg.axes.classCount)
    have hm := Int.emod_nonneg oc hmult.ne'
    have hm' := Int.emod_lt_of_pos oc hmult
    have hic := Int.ediv_nonneg hoc.1 hmult.le
    have hic' := Int.ediv_lt_of_lt_mul hmult hoc.2
    have hk := Int.ediv_nonneg hoa.1 (by omega : 0 ≤ s.cfg.axes.classCount)
    have hoa_eq := Int.mul_ediv_add_emod oa s.cfg.axes.classCount
    have hoc_eq := Int.mul_ediv_add_emod oc s.cfg.chMult.toInt
    rw [mul_comm] at hoa_eq hoc_eq
    have hk' : oa / s.cfg.axes.classCount < s.cfg.axes.subOutputs (oa % s.cfg.axes.classCount) :=
      (hx.lt_subOutputs_iff _ hk).2 (by omega)
    refine ⟨(oa % s.cfg.axes.classCount).toNat, by omega, (oc / s.cfg.chMult.toInt).toNat, by omega,
      (oc % s.cfg.chMult.toInt).toNat, by omega, (oa / s.cfg.axes.classCount).toNat, wc.toNat, ?_, by omega, ?_⟩
    · rw [Int.toNat_of_nonneg hr]
      omega
    · rw [Nat.zero_add, Int.toNat_of_nonneg hr, Int.toNat_of_nonneg hm, Int.toNat_of_nonneg hic,
        Int.toNat_of_nonneg hk, Int.toNat_of_nonneg hwc.1, hoa_eq, hoc_eq]
      exact hovf

/-- The outputs by row and column instead of by ring axis and cross axis (10_state.md R60). -/
theorem exists_output_iff (c : Cfg) (P : Int → Int → Prop) :
    (∃ oa wc : Int, (0 ≤ oa ∧ oa < c.axes.outA) ∧ (0 ≤ wc ∧ wc < c.axes.outC) ∧
        P (c.outputRow oa wc) (c.outputColumn oa wc)) ↔
      ∃ oy ox : Int, (0 ≤ oy ∧ oy < c.outH.toInt) ∧ (0 ≤ ox ∧ ox < c.outW.toInt) ∧ P oy ox := by
  cases hl : c.channelFirst with
  | true => simp only [Cfg.axes, Cfg.outputRow, Cfg.outputColumn, hl, if_true]
  | false =>
    simp only [Cfg.axes, Cfg.outputRow, Cfg.outputColumn, hl, Bool.false_eq_true, if_false]
    constructor
    · rintro ⟨oa, wc, hoa, hwc, hP⟩
      exact ⟨wc, oa, hwc, hoa, hP⟩
    · rintro ⟨oy, ox, hoy, hox, hP⟩
      exact ⟨ox, oy, hox, hoy, hP⟩

/-! ### CONV on a legal configuration (46_conv_sequencer.md R356, R361) -/

/-- The state in which CONV's loops begin: BEGIN's part, DECOMP, KS_CLEAR. -/
def convStart (s : State) : State := clearStaging (decompose (openCall s.close))

theorem convolve_openCall (s : State) :
    convolve (openCall s.close) = releaseScratch (convLoops (convStart s)).close := rfl

/-- The bias add of REF leaves 64 bits at some output of the call, which only S8S16 can (43_compute_loop.md
R254). -/
def CallOverflows (s : State) : Prop :=
  s.cfg.precision = .s8s16 ∧ ∃ oc oy ox : Int,
    (0 ≤ oc ∧ oc < s.cfg.outChannels) ∧ (0 ≤ oy ∧ oy < s.cfg.outH.toInt) ∧
    (0 ≤ ox ∧ ox < s.cfg.outW.toInt) ∧
    (refSum s.cfg s.mem oc oy ox + biasElem s.cfg s.mem oc < -(2 ^ 63) ∨
      2 ^ 63 ≤ refSum s.cfg s.mem oc oy ox + biasElem s.cfg s.mem oc)

/-- The same along the ring axis and the cross axis. -/
theorem callOverflows_iff (s : State) : CallOverflows s ↔
    ∃ oc oa wc : Int, (0 ≤ oc ∧ oc < s.cfg.outChannels) ∧ (0 ≤ oa ∧ oa < s.cfg.axes.outA) ∧
      (0 ≤ wc ∧ wc < s.cfg.axes.outC) ∧ OutputOverflows s oc oa wc := by
  have hrow := fun oc => exists_output_iff s.cfg fun oy ox =>
    biasOverflows s.cfg (refSum s.cfg s.mem oc oy ox) (biasElem s.cfg s.mem oc) = true
  simp only [OutputOverflows, axisSum_eq_refSum]
  constructor
  · rintro ⟨hprec, oc, oy, ox, hoc, hoy, hox, hovf⟩
    obtain ⟨oa, wc, hoa, hwc, h⟩ := (hrow oc).2
      ⟨oy, ox, hoy, hox, (biasOverflows_iff _ _ _).2 ⟨hprec, hovf⟩⟩
    exact ⟨oc, oa, wc, hoc, hoa, hwc, h⟩
  · rintro ⟨oc, oa, wc, hoc, hoa, hwc, h⟩
    obtain ⟨oy, ox, hoy, hox, h'⟩ := (hrow oc).1 ⟨oa, wc, hoa, hwc, h⟩
    obtain ⟨hprec, hovf⟩ := (biasOverflows_iff _ _ _).1 h'
    exact ⟨hprec, oc, oy, ox, hoc, hoy, hox, hovf⟩

/-- A legal call may be taken as one that starts from canonical memory, the call before it closed. -/
theorem exists_convHolds {s : State} (hp : s.params.ok = true) (hlegal : ConfigLegal s.params s.cfg)
    (hshift : checkShiftArray s.cfg s.mem = none) :
    ∃ s', SameButForm s.close s' ∧ SameButForm (convStart s) (convStart s') ∧
      ConvHolds s' (convStart s') := by
  obtain ⟨m', hwf, halike⟩ := exists_canonical s.mem
  have hinv : Inv { s.close with mem := m' } := .of_closed hp hwf rfl
  refine ⟨{ s.close with mem := m' }, .withMem (s := s.close) halike,
    SameButForm.clearStaging (.withMem (s := decompose (openCall s.close)) halike),
    hinv.convHolds (callVerdict_accept.2 ⟨hlegal, ?_⟩)⟩
  exact halike.checkShiftArray_eq.trans hshift

theorem SameButForm.callOverflows_iff {s t : State} (h : SameButForm s t) :
    CallOverflows t ↔ CallOverflows s := by
  obtain ⟨hm⟩ := h
  rw [Machine.callOverflows_iff, Machine.callOverflows_iff]
  simp only [OutputOverflows, hm.axisSum_eq, hm.biasElem_eq]

/-- The residue class that CONV does last. -/
def Cfg.lastClass (c : Cfg) : Nat := c.axes.classCount.toNat - 1

/-- What CONV's loops leave: the registers of the last filter, and ACC_OVF if the bias add of any output leaves
64 bits. -/
structure LoopsLeave (s t : State) : Prop where
  /-- The context registers. -/
  ctx : t.ctx = filterCtx s.cfg.lastClass (s.cfg.inC.toInt.toNat - 1) (s.cfg.chMult.toInt.toNat - 1)
    (s.cfg.lastTile s.params s.cfg.lastClass)
  /-- The bookkeeping registers but for those of the accumulators. -/
  book : t.book = { s.cfg.tileBook s.params s.cfg.lastClass (s.cfg.lastTile s.params s.cfg.lastClass)
    (s.cfg.axes.subOutputs s.cfg.lastClass - s.cfg.lastTile s.params s.cfg.lastClass) with
    accJ0 := t.book.accJ0, accN := t.book.accN }
  /-- The accumulator registers. -/
  acc : AccOfClass s (s.cfg.computedClass s.cfg.lastClass) t
  /-- The sticky flags. -/
  sticky : t.status.err = s.status.err ∧ t.status.underrun = s.status.underrun ∧
    (t.status.accOvf = true ↔ s.status.accOvf = true ∨ CallOverflows s)

theorem convLoops_leaves {s : State} (hp : s.params.ok = true) (hlegal : ConfigLegal s.params s.cfg)
    (hshift : checkShiftArray s.cfg s.mem = none) : LoopsLeave s (convLoops (convStart s)) := by
  obtain ⟨s', hsame, hstart, hrun⟩ := exists_convHolds hp hlegal hshift
  obtain ⟨hdone, hovf⟩ := hrun.convLoops
  have hloops := hstart.convLoops
  have hcfg : s'.cfg = s.cfg := hsame.cfg
  have hparams : s'.params = s.params := hsame.params
  have hacc := hdone.acc
  rw [someOverflows_iff (hcfg ▸ hlegal.shapeLegal), ← callOverflows_iff, hsame.callOverflows_iff] at hovf
  refine ⟨?_, ?_, ?_, (keptByConv_err _).convLoops rfl, (keptByConv_underrun _).convLoops rfl, ?_⟩
  · rw [← hloops.ctx, hdone.ctx, hcfg, hparams]
    rfl
  · rw [← hloops.book, ← hcfg, ← hparams]
    exact hdone.book
  · rw [AccOfClass, ← hloops.book, ← hcfg, ← hparams]
    exact hacc
  · rw [← hloops.status, hovf, hstart.status]
    exact Iff.rfl

/-- The first output of the last tile, as the formula of R356. -/
theorem lastTile_eq {p : Config.Params} {c : Cfg} (hR : 0 < p.rIter) (hx : c.axes.Legal) (r : Nat) :
    (c.lastTile p r : Int) = max 0 ((c.axes.subOutputs r - 1) / p.rIter) * p.rIter := by
  have hR' : (0 : Int) < p.rIter := by omega
  rcases (hx.subOutputs_nonneg r).eq_or_lt with hnone | hpos
  · have hneg : (c.axes.subOutputs r - 1) / (p.rIter : Int) < 0 := Int.ediv_neg_of_neg_of_pos (by omega) hR'
    rw [Cfg.lastTile, max_eq_left hneg.le, ← hnone]
    simp
  · have hcast : (((c.axes.subOutputs r).toNat - 1 : Nat) : Int) = c.axes.subOutputs r - 1 := by omega
    rw [Cfg.lastTile, max_eq_right (Int.ediv_nonneg (by omega) hR'.le), Nat.cast_mul, Int.natCast_ediv, hcast]

/-- The class computed last: the last class, or the last output if there are fewer outputs than classes. -/
theorem computedClass_lastClass {c : Cfg} (hx : c.axes.Legal) :
    (c.computedClass c.lastClass : Int) = min c.axes.classCount c.axes.outA - 1 := by
  have hcount := hx.lattice.count_pos
  obtain ⟨hout, -⟩ := hx.output
  unfold Cfg.computedClass Cfg.lastClass
  omega

theorem lastTile_computedClass {p : Config.Params} {c : Cfg} (hR : 0 < p.rIter) (hx : c.axes.Legal) :
    (c.lastTile p (c.computedClass c.lastClass) : Int) =
      (c.axes.subOutputs (c.computedClass c.lastClass) - 1) / p.rIter * p.rIter := by
  have hpos : 0 < c.axes.subOutputs (c.computedClass c.lastClass) := by
    rw [hx.subOutputs_pos_iff, computedClass_lastClass hx]
    omega
  rw [lastTile_eq hR hx, max_eq_right (Int.ediv_nonneg (by omega) (Int.natCast_nonneg _))]

theorem status_close_eq {st st' : Status} (herr : st'.err = st.err) (hunder : st'.underrun = st.underrun) :
    st'.close = { st with
      callOpen := false, decValid := false, kpadValid := false, ksValid := false, accValid := false
      cbState := .uninitialized, accOvf := st'.accOvf } := by
  rw [Status.close, herr, hunder]

/-- Settles O58: the loops leave the registers of the last filter, and closing the call and releasing its
scratch region leave them alone. -/
theorem convCompletes : Obligations.ConvCompletes := by
  classical
  intro s hp hlegal hshift
  have hx := hlegal.axes
  have hR : 0 < s.params.rIter := by have := ((params_ok_iff _).1 hp).1; omega
  obtain ⟨hctx, hbook, ⟨haccJ0, haccN⟩, herr, hunder, hovf⟩ := convLoops_leaves hp hlegal hshift
  refine ⟨(releaseScratch (convLoops (convStart s)).close).finish 0, decide (CallOverflows s), ?_,
    rfl, rfl, rfl, rfl, ?_, decide_eq_true_iff, ?_, ?_⟩
  · rw [← convolve_openCall]
    exact startCall_of_accept (callVerdict_accept.2 ⟨hlegal, hshift⟩) convolve
  · have hadd : (convLoops (convStart s)).status.accOvf = (s.status.accOvf || decide (CallOverflows s)) := by
      rw [Bool.eq_iff_iff, hovf, Bool.or_eq_true, decide_eq_true_iff]
    rw [← hadd]
    exact status_close_eq herr hunder
  · obtain ⟨hparams, hcfg, hqueue, hreply⟩ := commandEffect_keepsSetup .conv s
    exact ⟨hparams, hcfg, hqueue, hreply⟩
  · rintro _ last computed start accStart before entries rfl hlast hcomputed hstart haccStart hbefore hentries
    have hin := hlegal.inC_pos
    have hmult := hlegal.chMult_pos
    have hcount := hx.lattice.count_pos
    obtain rfl : last = s.cfg.lastClass := by
      unfold Cfg.lastClass
      omega
    obtain rfl : computed = s.cfg.computedClass s.cfg.lastClass :=
      hcomputed.trans (computedClass_lastClass hx).symm
    obtain rfl : start = s.cfg.lastTile s.params s.cfg.lastClass := hstart.trans (lastTile_eq hR hx _).symm
    obtain rfl : accStart = s.cfg.lastTile s.params (s.cfg.computedClass s.cfg.lastClass) :=
      haccStart.trans (lastTile_computedClass hR hx).symm
    obtain rfl : before = s.cfg.axes.entriesOf (s.cfg.lastTile s.params s.cfg.lastClass) := hbefore
    obtain rfl : entries = s.cfg.axes.entriesOf (s.cfg.axes.subOutputs s.cfg.lastClass) :=
      hentries.trans (s.cfg.axes.subEntries_eq _)
    refine ⟨?_, ?_⟩
    · rw [show s.cfg.inC.toInt - 1 = (s.cfg.inC.toInt.toNat - 1 : Nat) by omega,
        show s.cfg.chMult.toInt - 1 = (s.cfg.chMult.toInt.toNat - 1 : Nat) by omega]
      simp only [BitVec.ofInt_natCast]
      exact hctx
    · rw [haccJ0, haccN] at hbook
      simp only [Cfg.tileBook, add_sub_cancel] at hbook
      exact hbook

end Sys2Proof.Machine

/-! SUPPORT. The proofs of the family 44_requantization about REQ_WRITE (O47 to O49): the range of `FINISH`, the
elements of the output tensor, and what the stores of a tile leave in it. -/

namespace Sys2Proof.Machine

/-! ### The range of FINISH (44_requantization.md R282) -/

theorem clamp_bounds (v : Int) {lo hi : Int} (h : lo ≤ hi) : lo ≤ clamp v lo hi ∧ clamp v lo hi ≤ hi := by
  unfold clamp
  omega

/-- The last step of `FINISH` is a clamp to bounds that BEGIN has checked (46_conv_sequencer.md R352 A8). -/
theorem finishWith_holds {c : Cfg} (hc : ArgsLegal c) (hp : c.precision ≠ .f32) (acc mult shift : Int) :
    c.precision.tOut.holds (finishWith c acc mult shift) := by
  cases hprec : c.precision with
  | f32 => exact absurd hprec hp
  | i8 =>
    simp only [finishWith, hprec, Prec.tOut, ElemType.holds]
    have := clamp_bounds (rha acc c.accShift.toInt) (by norm_num : (-128 : Int) ≤ 127)
    omega
  | i16 =>
    simp only [finishWith, hprec, Prec.tOut, ElemType.holds]
    have := clamp_bounds (rha acc c.accShift.toInt) (by norm_num : (-32768 : Int) ≤ 32767)
    omega
  | asym8 =>
    obtain ⟨-, -, -, -, hlo, hle, hhi⟩ := hc.quantized8 (.inl hprec)
    simp only [finishWith, hprec, Prec.tOut, ElemType.holds]
    have := clamp_bounds (rq31 acc c.outMult.toInt c.outShift.toInt + c.outZp.toInt) hle
    omega
  | pc8 =>
    obtain ⟨-, -, -, -, hlo, hle, hhi⟩ := hc.quantized8 (.inr hprec)
    simp only [finishWith, hprec, Prec.tOut, ElemType.holds]
    have := clamp_bounds (rq31 acc mult shift + c.outZp.toInt) hle
    omega
  | s8s16 =>
    obtain ⟨hlo, hle, hhi⟩ := hc.quantized16 hprec
    simp only [finishWith, hprec, Prec.tOut, ElemType.holds]
    have := clamp_bounds (rha (acc * reduce15 mult) (15 - shift)) hle
    omega

/-- Settles O49: `FINISH` clamps to bounds in the range of the output element type. -/
theorem finishInRange : Obligations.FinishInRange := fun c _ _ acc hc hp =>
  finishWith_holds ((checkArgs_eq_none c).1 hc) hp acc _ _

/-- `FINISH` of a stored accumulator is a value of the output element type; that of F32 is the pattern itself. -/
theorem finishAcc_loadAcc_holds {s : State} (hc : ArgsLegal s.cfg) (oc e : Int) :
    s.cfg.precision.tOut.holds (finishAcc s.cfg s.mem oc (s.loadAcc e)) := by
  by_cases hp : s.cfg.precision = .f32
  · have hpattern := load_holds s.mem (s.accAddr e) .f32
    simpa only [finishAcc, finishWith, State.loadAcc, hp, Prec.tOut] using hpattern
  · exact finishWith_holds hc hp _ _ _

/-! ### The elements of the output tensor (20_memory.md R111, R113) -/

/-- Two elements of a placed array are the same one or lie apart. -/
theorem arrayElems_apart {ptr : Word} {es idx idx' n : Int} (hes : 0 < es) (hidx : 0 ≤ idx ∧ idx < n)
    (hidx' : 0 ≤ idx' ∧ idx' < n) (hpl : (regionAt ptr (n * es)).placed = true) :
    idx = idx' ∨ (ptrPlus ptr (es * idx) : Int) + es ≤ ptrPlus ptr (es * idx') ∨
      (ptrPlus ptr (es * idx') : Int) + es ≤ ptrPlus ptr (es * idx) := by
  have haddr {i : Int} (hi : 0 ≤ i ∧ i < n) : (ptrPlus ptr (es * i) : Int) = ptr.toNat + i * es := by
    obtain ⟨h0, h1⟩ := grid_index_lt hi ⟨le_rfl, hes⟩
    have hend := ((Region.placed_iff _).1 hpl).2
    simp only [regionAt] at hend
    rw [mul_comm es i, ptrPlus_eq (by omega) (by omega)]
  rw [haddr hidx, haddr hidx']
  rcases grid_apart (q := idx) (q' := idx') hes.le with h | h | h
  · exact .inl h
  · exact .inr (.inl (by omega))
  · exact .inr (.inr (by omega))

/-- Two output elements of one channel have the same coordinates or lie apart. -/
theorem ConfigLegal.outputElems_apart {p : Config.Params} {c : Cfg} (h : ConfigLegal p c) {oc oa wc oa' wc' : Int}
    (hoc : 0 ≤ oc ∧ oc < c.outChannels) (hoa : 0 ≤ oa ∧ oa < c.axes.outA) (hwc : 0 ≤ wc ∧ wc < c.axes.outC)
    (hoa' : 0 ≤ oa' ∧ oa' < c.axes.outA) (hwc' : 0 ≤ wc' ∧ wc' < c.axes.outC) :
    (oa = oa' ∧ wc = wc') ∨
      (c.outputAddrAc oc oa wc : Int) + c.precision.tOut.size ≤ c.outputAddrAc oc oa' wc' ∨
      (c.outputAddrAc oc oa' wc' : Int) + c.precision.tOut.size ≤ c.outputAddrAc oc oa wc := by
  have hpl : (regionAt c.outPtr c.outputBytes).placed = true :=
    h.placed_of_mem (by simp [Cfg.regions, Cfg.outputRegion])
  have hes : 0 < c.precision.esOut := by cases c.precision <;> decide
  cases hl : c.channelFirst with
  | true =>
    simp only [Cfg.axes, hl, if_true] at hoa hwc hoa' hwc'
    simp only [Cfg.outputAddrAc, Cfg.outputAddr, hl, if_true]
    refine (arrayElems_apart hes (index3_bounds hoc hoa hwc) (index3_bounds hoc hoa' hwc') hpl).imp_left fun he => ?_
    obtain ⟨hrow, hcol⟩ := grid_index_inj hwc hwc' he
    exact ⟨(grid_index_inj hoa hoa' hrow).2, hcol⟩
  | false =>
    simp only [Cfg.axes, hl] at hoa hwc hoa' hwc'
    have hbytes : c.outputBytes = c.outH.toInt * c.outW.toInt * c.outChannels * c.precision.esOut := by
      unfold Cfg.outputBytes
      ring
    rw [hbytes] at hpl
    simp only [Cfg.outputAddrAc, Cfg.outputAddr, hl]
    refine (arrayElems_apart hes (index3_bounds hwc hoa hoc) (index3_bounds hwc' hoa' hoc) hpl).imp_left fun he => ?_
    exact (grid_index_inj hoa hoa' (grid_index_inj hoc hoc he).1).symm

/-! ### REQ_WRITE (44_requantization.md R280) -/

/-- REQ_WRITE performs its effect when its preconditions are met. -/
theorem exec_reqWrite_of_pre {s : State} (h : reqWritePre s = none) :
    exec .reqWrite s = .next ((writeTile s).finish 0) := by
  rw [exec, execReqWrite, h, runCommand_none]

/-- Settles O47: with its preconditions met REQ_WRITE performs its effect, and memory changes at its stores
only. -/
theorem reqWriteCompletes : Obligations.ReqWriteCompletes := by
  intro s ho hacc
  exact ⟨(writeTile s).mem, exec_reqWrite_of_pre ((reqWritePre_eq_none s).2 ⟨ho, hacc⟩),
    fun a ha => read_applyStores_outside ha⟩

/-- The store of output (t, w) of the tile. -/
def State.outputStore (s : State) (t w : Nat) : Store :=
  elemStore (s.cfg.outputAddrAc s.contextChannel (s.outputCoord t) w) s.cfg.precision.tOut
    (finishAcc s.cfg s.mem s.contextChannel (s.loadAcc (t * s.cfg.axes.outC + w)))

theorem mem_reqWriteStores {s : State} {st : Store} :
    st ∈ reqWriteStores s ↔ ∃ t w : Nat, (t : Int) < s.book.accN.toInt ∧ (w : Int) < s.cfg.axes.outC ∧
      st = s.outputStore t w := by
  simp only [reqWriteStores, List.mem_map, Prod.exists, mem_tileIndices, Int.lt_toNat, and_assoc,
    eq_comm (a := st), State.outputStore]

section
variable {s : State} (h : Inv s) (hacc : s.status.accValid = true)
include h hacc

/-- The outputs of a tile are every COUNT-th one of the residue class (45_decomposer.md R335). -/
theorem Inv.outputCoord_eq (t : Int) :
    s.outputCoord t = (s.book.accJ0.toInt + t) * s.cfg.axes.classCount + s.ctx.res.toInt := by
  rw [State.outputCoord, (h.decomposition (h.flags.ring (h.flags.acc hacc).2)).count]

/-- A tile's output lies on the ring axis of the output tensor (45_decomposer.md R333). -/
theorem Inv.outputCoord_bounds {t : Nat} (ht : (t : Int) < s.book.accN.toInt) :
    0 ≤ s.outputCoord t ∧ s.outputCoord t < s.cfg.axes.outA := by
  have hr := (h.flags.acc hacc).2
  have hring := h.ring hr
  have hx := (h.callOpen_of_ring hr).config.axes
  have hinside := (h.tile hacc).inside
  have hj0 := (h.tile hacc).start.2
  have hres := hring.resClass.1
  rw [hring.nout] at hinside
  rw [h.outputCoord_eq hacc]
  have hcoord := Int.mul_nonneg (by omega : 0 ≤ s.book.accJ0.toInt + t) (Int.le_of_lt hx.lattice.count_pos)
  exact ⟨by omega, (hx.lt_subOutputs_iff _ (by omega)).1 (by omega)⟩

/-- After REQ_WRITE every output of the tile is what was stored: two outputs lie apart, because COUNT is
positive. -/
theorem Inv.load_reqWriteStores {t w : Nat} (ht : (t : Int) < s.book.accN.toInt) (hw : (w : Int) < s.cfg.axes.outC) :
    (s.mem.applyStores (reqWriteStores s)).load (s.cfg.outputAddrAc s.contextChannel (s.outputCoord t) w)
        s.cfg.precision.tOut =
      finishAcc s.cfg s.mem s.contextChannel (s.loadAcc (t * s.cfg.axes.outC + w)) := by
  obtain ⟨hk, hr⟩ := h.flags.acc hacc
  have hconfig := (h.callOpen_of_ring hr).config
  have hoc := h.contextChannel_lt hk
  have hoa := h.outputCoord_bounds hacc ht
  have hwc : 0 ≤ (w : Int) ∧ (w : Int) < s.cfg.axes.outC := ⟨Int.natCast_nonneg w, hw⟩
  refine (h.reqWriteStores_in hacc).load_mem (hconfig.outputElem_in hoc hoa hwc).2.2
    (mem_reqWriteStores.2 ⟨t, w, ht, hw, rfl⟩) (finishAcc_loadAcc_holds hconfig.argsLegal _ _) fun st hst => ?_
  obtain ⟨t', w', ht', hw', rfl⟩ := mem_reqWriteStores.1 hst
  refine (hconfig.outputElems_apart hoc (h.outputCoord_bounds hacc ht') ⟨Int.natCast_nonneg w', hw'⟩ hoa
    hwc).imp_left ?_
  rintro ⟨hcoord, hcross⟩
  obtain rfl : w' = w := by omega
  obtain rfl : t' = t := by
    have hcount : s.cfg.axes.classCount ≠ 0 := (Int.ne_of_lt hconfig.axes.lattice.count_pos).symm
    rw [h.outputCoord_eq hacc, h.outputCoord_eq hacc] at hcoord
    have := Int.eq_of_mul_eq_mul_right hcount (add_right_cancel hcoord)
    omega
  exact ⟨rfl, rfl⟩

end

/-- Settles O48: a REQ_WRITE that ends with CAUSE 0 found a tile, and every output of the tile holds what was
stored. -/
theorem reqWriteStoresOutputs : Obligations.ReqWriteStoresOutputs := by
  intro s r hinv hexec hok t w ht hw
  have hacc := ((reqWritePre_eq_none s).1 (pre_of_runCommand_succeeds hexec hok)).2
  obtain rfl := exec_succeeds hexec hok
  rw [← hinv.outputCoord_eq hacc]
  exact hinv.load_reqWriteStores hacc ht hw

end Sys2Proof.Machine

/-! SUPPORT. The fields of a binary32 pattern and the cases of the two operations on patterns, and the proof about
their special values (O53). -/

namespace Sys2Proof.Machine.F32

/-! ### The fields of a pattern (44_requantization.md R300) -/

theorem neg_eq (b : Word) : neg b = decide (2 ^ 31 ≤ b.toNat) := by
  rw [neg, ← BitVec.msb_eq_getLsbD_last, BitVec.msb_eq_decide]

theorem expField_eq (b : Word) : expField b = b.toNat / 2 ^ 23 % 2 ^ 8 := by
  rw [expField, BitVec.extractLsb'_toNat, Nat.shiftRight_eq_div_pow]

theorem fracField_eq (b : Word) : fracField b = b.toNat % 2 ^ 23 := by
  rw [fracField, BitVec.extractLsb'_toNat, Nat.shiftRight_zero]

theorem fracField_lt (b : Word) : fracField b < 2 ^ 23 := (b.extractLsb' 0 23).isLt

/-- A pattern is its sign and its magnitude. -/
theorem pack_fields (b : Word) : pack (neg b) (expField b * 2 ^ 23 + fracField b) = b := by
  have hb := b.isLt
  rw [← BitVec.toNat_inj, pack, BitVec.toNat_ofNat, neg_eq, expField_eq, fracField_eq]
  by_cases h : 2 ^ 31 ≤ b.toNat <;>
    simp only [h, decide_true, decide_false, if_true, if_false, Bool.false_eq_true] <;> omega

section
variable (s : Bool) {mag : Nat} (hmag : mag < 2 ^ 31)
include hmag

theorem toNat_pack : (pack s mag).toNat = if s then 2 ^ 31 + mag else mag := by
  rw [pack, BitVec.toNat_ofNat]
  cases s <;> simp only [if_true, if_false, Bool.false_eq_true] <;> omega

theorem neg_pack : neg (pack s mag) = s := by
  rw [neg_eq, toNat_pack s hmag]
  cases s with
  | false => simpa using hmag
  | true => simp

theorem expField_pack : expField (pack s mag) = mag / 2 ^ 23 := by
  rw [expField_eq, toNat_pack s hmag]
  cases s <;> simp only [if_true, if_false, Bool.false_eq_true] <;> omega

theorem fracField_pack : fracField (pack s mag) = mag % 2 ^ 23 := by
  rw [fracField_eq, toNat_pack s hmag]
  cases s <;> simp only [if_true, if_false, Bool.false_eq_true]
  omega

/-- The last bit of a pattern is that of its magnitude. -/
theorem getLsbD_zero_pack : (pack s mag).getLsbD 0 = decide (mag % 2 = 1) := by
  rw [BitVec.getLsbD, Nat.testBit_zero, toNat_pack s hmag]
  cases s <;> simp only [if_true, if_false, Bool.false_eq_true, decide_eq_decide]
  omega

end

/-! ### The opposite of a pattern -/

section
variable (b : Word)

theorem neg_opposite : neg (b ^^^ 0x80000000) = !neg b := by simp [neg]

theorem expField_opposite : expField (b ^^^ 0x80000000) = expField b := by
  rw [expField, BitVec.extractLsb'_xor]
  exact congrArg BitVec.toNat BitVec.xor_zero

theorem fracField_opposite : fracField (b ^^^ 0x80000000) = fracField b := by
  rw [fracField, BitVec.extractLsb'_xor]
  exact congrArg BitVec.toNat BitVec.xor_zero

theorem mant_opposite : mant (b ^^^ 0x80000000) = mant b := by
  rw [mant, mant, expField_opposite, fracField_opposite]

theorem scale_opposite : scale (b ^^^ 0x80000000) = scale b := by
  rw [scale, scale, expField_opposite]

theorem isFinite_opposite : isFinite (b ^^^ 0x80000000) = isFinite b := by
  rw [isFinite, isFinite, expField_opposite]

theorem aligned_opposite (low : Nat) : aligned (b ^^^ 0x80000000) low = -aligned b low := by
  simp only [aligned, mant_opposite, scale_opposite, neg_opposite]
  cases neg b <;> simp

end

/-! ### Numbers, infinities and NaNs -/

theorem isNaN_iff (b : Word) : isNaN b = true ↔ expField b = 255 ∧ fracField b ≠ 0 := by simp [isNaN]

theorem isInf_iff (b : Word) : isInf b = true ↔ expField b = 255 ∧ fracField b = 0 := by simp [isInf]

theorem isFinite_iff (b : Word) : isFinite b = true ↔ expField b ≠ 255 := by simp [isFinite]

theorem isNaN_or_isInf_or_isFinite (b : Word) : isNaN b = true ∨ isInf b = true ∨ isFinite b = true := by
  rw [isNaN_iff, isInf_iff, isFinite_iff]
  tauto

theorem isNaN_of_isFinite {b : Word} (h : isFinite b = true) : isNaN b = false := by
  rw [← Bool.not_eq_true, isNaN_iff]
  exact fun hn => (isFinite_iff b).1 h hn.1

theorem isInf_of_isFinite {b : Word} (h : isFinite b = true) : isInf b = false := by
  rw [← Bool.not_eq_true, isInf_iff]
  exact fun hi => (isFinite_iff b).1 h hi.1

theorem isNaN_of_isInf {b : Word} (h : isInf b = true) : isNaN b = false := by
  rw [← Bool.not_eq_true, isNaN_iff]
  exact fun hn => hn.2 ((isInf_iff b).1 h).2

theorem mant_of_isInf {b : Word} (h : isInf b = true) : mant b ≠ 0 := by
  simp [mant, ((isInf_iff b).1 h).1]

/-- Only the two zeros have significand 0. -/
theorem isFinite_of_mant {b : Word} (h : mant b = 0) : isFinite b = true := by
  rw [isFinite_iff]
  intro he
  simp [mant, he] at h

theorem infinity_of_isInf {b : Word} (h : isInf b = true) : infinity (neg b) = b := by
  obtain ⟨hexp, hfrac⟩ := (isInf_iff b).1 h
  have hpack := pack_fields b
  rwa [hexp, hfrac] at hpack

/-! ### The cases of the operations (44_requantization.md R300) -/

section
variable {a b : Word}

theorem mul_of_isNaN (h : isNaN a = true ∨ isNaN b = true) : mul a b = canonicalNaN := by
  simp only [mul, Bool.or_eq_true, if_pos h]

theorem add_of_isNaN (h : isNaN a = true ∨ isNaN b = true) : add a b = canonicalNaN := by
  simp only [add, Bool.or_eq_true, if_pos h]

theorem mul_of_isInf (ha : isInf a = true) (hb : isNaN b = false) :
    mul a b = if mant b = 0 then canonicalNaN else infinity (neg a != neg b) := by
  by_cases hm : mant b = 0 <;> simp [mul, ha, hb, isNaN_of_isInf ha, mant_of_isInf ha, hm]

theorem add_of_isInf_left (ha : isInf a = true) (hb : isNaN b = false) :
    add a b = if isInf b = true ∧ neg a ≠ neg b then canonicalNaN else a := by
  cases hi : isInf b with
  | false => simp [add, ha, hb, hi, isNaN_of_isInf ha, infinity_of_isInf ha]
  | true =>
    by_cases hs : neg a = neg b
    · simp [add, ha, hb, hi, isNaN_of_isInf ha, ← hs, infinity_of_isInf ha]
    · simp [add, ha, hb, hi, isNaN_of_isInf ha, hs]

theorem add_of_isInf_right (ha : isFinite a = true) (hb : isInf b = true) : add a b = b := by
  simp only [add, isNaN_of_isFinite ha, isInf_of_isFinite ha, isNaN_of_isInf hb, hb, infinity_of_isInf hb,
    Bool.or_self, Bool.false_and, Bool.false_eq_true, if_false, if_true]

/-- The exact sum of two numbers in units of the smaller exponent. -/
def alignedSum (a b : Word) : Int :=
  aligned a (min (scale a) (scale b)) + aligned b (min (scale a) (scale b))

theorem alignedSum_symm (a b : Word) : alignedSum a b = alignedSum b a := by
  rw [alignedSum, alignedSum, min_comm, add_comm]

variable (ha : isFinite a = true) (hb : isFinite b = true)
include ha hb

theorem mul_of_isFinite :
    mul a b = roundPack (neg a != neg b) (mant a * mant b) ((scale a : Int) + scale b - 300) := by
  simp only [mul, isNaN_of_isFinite, isInf_of_isFinite, ha, hb, Bool.or_self, Bool.false_eq_true, if_false]

theorem add_of_isFinite :
    add a b = if alignedSum a b = 0 then pack (neg a && neg b) 0
      else roundPack (decide (alignedSum a b < 0)) (alignedSum a b).natAbs
        ((min (scale a) (scale b) : Nat) - 150) := by
  simp only [add, alignedSum, isNaN_of_isFinite, isInf_of_isFinite, ha, hb, Bool.or_self, Bool.and_self,
    Bool.false_eq_true, if_false]
  rfl

end

/-! ### The operations are commutative -/

theorem mul_symm (a b : Word) : mul a b = mul b a := by
  simp only [mul, Bool.or_comm (isNaN b), Bool.or_comm (isInf b), Bool.and_comm (mant b != 0), bne_comm (b := neg a),
    Nat.mul_comm (mant b), add_comm (scale b : Int)]

theorem add_symm_of_isInf {a b : Word} (ha : isInf a = true) (hb : isNaN b = false) : add a b = add b a := by
  rcases isNaN_or_isInf_or_isFinite b with hb' | hb' | hb'
  · rw [hb] at hb'; cases hb'
  · rw [add_of_isInf_left ha hb, add_of_isInf_left hb' (isNaN_of_isInf ha), ha, hb']
    by_cases hs : neg a = neg b
    · rw [← infinity_of_isInf ha, ← infinity_of_isInf hb', hs]
    · simp [hs, Ne.symm hs]
  · rw [add_of_isInf_right hb' ha, add_of_isInf_left ha hb, isInf_of_isFinite hb']
    simp

theorem add_symm (a b : Word) : add a b = add b a := by
  rcases isNaN_or_isInf_or_isFinite a with ha | ha | ha
  · rw [add_of_isNaN (.inl ha), add_of_isNaN (.inr ha)]
  · cases hb : isNaN b with
    | true => rw [add_of_isNaN (.inl hb), add_of_isNaN (.inr hb)]
    | false => exact add_symm_of_isInf ha hb
  · rcases isNaN_or_isInf_or_isFinite b with hb | hb | hb
    · rw [add_of_isNaN (.inl hb), add_of_isNaN (.inr hb)]
    · exact (add_symm_of_isInf hb (isNaN_of_isFinite ha)).symm
    · rw [add_of_isFinite ha hb, add_of_isFinite hb ha, alignedSum_symm, Bool.and_comm, min_comm]

/-! ### Zeros and signs -/

theorem aligned_of_mant {b : Word} (h : mant b = 0) (low : Nat) : aligned b low = 0 := by simp [aligned, h]

theorem roundPack_zero (s : Bool) (e : Int) : roundPack s 0 e = pack s 0 := if_pos rfl

/-- The magnitude of a rounded number, at most that of an infinity. -/
theorem roundPack_mag (s : Bool) (m : Nat) (e : Int) : ∃ mag < 2 ^ 31, roundPack s m e = pack s mag := by
  by_cases h : m = 0
  · exact ⟨0, by norm_num, if_pos h⟩
  · exact ⟨_, lt_of_le_of_lt (min_le_left _ _) (by norm_num), if_neg h⟩

theorem neg_roundPack (s : Bool) (m : Nat) (e : Int) : neg (roundPack s m e) = s := by
  obtain ⟨mag, hmag, heq⟩ := roundPack_mag s m e
  rw [heq, neg_pack s hmag]

/-- x + (-x) is +0. -/
theorem add_opposite {a : Word} (ha : isFinite a = true) : add a (a ^^^ 0x80000000) = 0 := by
  have hsum : alignedSum a (a ^^^ 0x80000000) = 0 := by
    rw [alignedSum, aligned_opposite, scale_opposite, add_neg_cancel]
  rw [add_of_isFinite ha (by rw [isFinite_opposite, ha]), if_pos hsum, neg_opposite, Bool.and_not_self]
  rfl

/-- The sum of two zeros. -/
theorem add_of_mant {a b : Word} (ha : mant a = 0) (hb : mant b = 0) : add a b = pack (neg a && neg b) 0 := by
  rw [add_of_isFinite (isFinite_of_mant ha) (isFinite_of_mant hb), if_pos]
  rw [alignedSum, aligned_of_mant ha, aligned_of_mant hb, add_zero]

/-- Settles O53: each clause is a case of the two operations. -/
theorem floatSpecialValues : Obligations.FloatSpecialValues := by
  refine fun a b => ⟨fun h => ⟨mul_of_isNaN h, add_of_isNaN h⟩, fun ha hb => ?_, fun ha hb hs => ?_,
    fun ha hb hs => ?_, fun ha hb hm => ?_, fun ha hb hm => ?_, fun ha hb => ?_, add_opposite, add_of_mant,
    mul_symm a b, add_symm a b⟩
  · rw [mul_of_isInf ha (isNaN_of_isFinite (isFinite_of_mant hb)), if_pos hb, canonicalNaN]
  · rw [add_of_isInf_left ha (isNaN_of_isInf hb), if_pos ⟨hb, hs⟩, canonicalNaN]
  · rw [add_of_isInf_left ha hb, if_neg]
    exact fun h => h.2 (hs h.1).symm
  · rw [mul_of_isInf ha hb, if_neg hm]
  · rw [mul_of_isFinite ha hb, hm, mul_zero, roundPack_zero]
  · rw [mul_of_isFinite ha hb, neg_roundPack]

end Sys2Proof.Machine.F32

/-! SUPPORT. The proof that fmul32 and fadd32 round once to nearest, ties to even (O52): numbers as multiples of a
power of two, the rounding of a significand, and the exact product and sum. -/

namespace Sys2Proof.Machine.F32

/-! ### Rounding to an integer, ties to even (44_requantization.md R300) -/

/-- `n` is an integer nearest to `z`, and of two nearest ones it is the even one. -/
def NearestEven (z : ℚ) (n : Nat) : Prop := 2 * |(n : ℚ) - z| ≤ 1 ∧ (2 * |(n : ℚ) - z| = 1 → Even n)

theorem nearestEven_self (n : Nat) : NearestEven n n := by simp [NearestEven]

/-- Nearness to a quotient of natural numbers, in natural numbers. -/
theorem nearestEven_div {m d n : Nat} (hd : 0 < d) (hlo : 2 * m ≤ 2 * (n * d) + d) (hhi : 2 * (n * d) ≤ 2 * m + d)
    (htie : 2 * m = 2 * (n * d) + d ∨ 2 * (n * d) = 2 * m + d → Even n) : NearestEven (m / d) n := by
  have hd' : (0 : ℚ) < d := by exact_mod_cast hd
  have hdist : 2 * |(n : ℚ) - m / d| = (|2 * (n * d : Int) - 2 * m| : Int) / d := by
    rw [show (n : ℚ) - m / d = (n * d - m) / d by field_simp, abs_div, abs_of_pos hd', ← mul_sub, abs_mul]
    push_cast
    rw [abs_two, mul_div_assoc]
  have hle : |2 * (n * d : Int) - 2 * m| ≤ d := abs_le.2 ⟨by omega, by omega⟩
  have heq : |2 * (n * d : Int) - 2 * m| = d → Even n := fun h => htie (by
    rcases abs_cases (2 * (n * d : Int) - 2 * m) with ⟨habs, -⟩ | ⟨habs, -⟩ <;> omega)
  rw [NearestEven, hdist, div_le_one hd', div_eq_one_iff_eq hd'.ne']
  exact ⟨by exact_mod_cast hle, fun h => heq (by exact_mod_cast h)⟩

/-- The quotient, one more, or at a tie the even one of the two. -/
theorem nearestEven_divRne (m k : Nat) : NearestEven (m / 2 ^ k) (divRne m k) := by
  have hpos : 0 < 2 ^ k := by positivity
  have hm := Nat.div_add_mod' m (2 ^ k)
  have hlt := Nat.mod_lt m hpos
  have hcast : (2 : ℚ) ^ k = ((2 ^ k : Nat) : ℚ) := by norm_cast
  rw [hcast]
  unfold divRne
  generalize 2 ^ k = d at *
  generalize m / d = f at *
  generalize m % d = r at *
  have hsucc : (f + 1) * d = f * d + d := add_one_mul f d
  dsimp only
  split
  · exact nearestEven_div hpos (by omega) (by omega) (by omega)
  split
  · exact nearestEven_div hpos (by omega) (by omega) (by omega)
  · rcases Nat.mod_two_eq_zero_or_one f with hf | hf <;> rw [hf]
    · rw [add_zero]
      exact nearestEven_div hpos (by omega) (by omega) fun _ => Nat.even_iff.2 hf
    · exact nearestEven_div hpos (by omega) (by omega) fun _ => Nat.even_iff.2 (by omega)

section
variable {z : ℚ} {n : Nat} (h : NearestEven z n)
include h

/-- No other integer is nearer, and one as near is so at a tie. -/
theorem NearestEven.le_of_int (i : Int) :
    |(n : ℚ) - z| ≤ |(i : ℚ) - z| ∧ (|(n : ℚ) - z| = |(i : ℚ) - z| → (i : ℚ) ≠ n → Even n) := by
  obtain ⟨hnear, htie⟩ := h
  by_cases hi : i = n
  · subst hi
    exact ⟨le_rfl, fun _ hne => absurd rfl hne⟩
  · have hapart : (1 : ℚ) ≤ |(i : ℚ) - n| := by
      have : (1 : Int) ≤ |i - n| := Int.one_le_abs (sub_ne_zero.2 hi)
      exact_mod_cast this
    have htri : |(i : ℚ) - n| ≤ |(i : ℚ) - z| + |(n : ℚ) - z| := by
      rw [abs_sub_comm (n : ℚ) z]
      exact abs_sub_le _ _ _
    exact ⟨by linarith, fun heq _ => htie (by linarith)⟩

theorem NearestEven.le_of_lt {b : Nat} (hz : z < b) : n ≤ b := by
  have hnear := h.1
  have := le_abs_self ((n : ℚ) - z)
  by_contra hlt
  have : (b : ℚ) + 1 ≤ n := by exact_mod_cast Nat.lt_of_not_le hlt
  linarith

theorem NearestEven.le_of_le {b : Nat} (hz : b ≤ z) : b ≤ n := by
  have hnear := h.1
  have := neg_abs_le ((n : ℚ) - z)
  by_contra hlt
  have : (n : ℚ) + 1 ≤ b := by exact_mod_cast Nat.lt_of_not_le hlt
  linarith

end

/-! ### The value of a pattern -/

/-- The factor of a sign bit. -/
def signOf (s : Bool) : ℚ := if s then -1 else 1

theorem signOf_bne (s t : Bool) : signOf (s != t) = signOf s * signOf t := by
  cases s <;> cases t <;> simp [signOf]

theorem signOf_mul_signOf_mul (s : Bool) (v : ℚ) : signOf s * (signOf s * v) = v := by cases s <;> simp [signOf]

theorem abs_signOf (s : Bool) : |signOf s| = 1 := by cases s <;> simp [signOf]

/-- Distances do not change when both ends change their sign. -/
theorem abs_sub_signOf_mul (s : Bool) (v x : ℚ) : |v - signOf s * x| = |signOf s * v - x| := by
  cases s with
  | false => simp only [signOf, Bool.false_eq_true, if_false, one_mul]
  | true =>
    rw [← abs_neg]
    simp only [signOf, if_true, neg_one_mul]
    ring_nf

theorem value_eq (b : Word) : value b = signOf (neg b) * mant b * 2 ^ ((scale b : Int) - 150) := rfl

theorem mant_lt (b : Word) : mant b < 2 ^ 24 := by
  have := fracField_lt b
  unfold mant
  split <;> omega

/-- A number is a multiple of the unit `2 ^ q`, unless its exponent is smaller: then it is small. -/
theorem value_multiple_or_small (b : Word) {k : Nat} : 
    (∃ i : Int, value b = i * 2 ^ ((k : Int) - 149)) ∨ 
      (k ≠ 0 ∧ |value b| < 2 ^ 23 * 2 ^ ((k : Int) - 149)) := by
  have hscale : 1 ≤ scale b := le_max_right _ _
  rcases le_or_gt (k + 1) (scale b) with hle | hgt
  · refine .inl ⟨(if neg b then -1 else 1) * mant b * 2 ^ (scale b - (k + 1)), ?_⟩
    have hexp : (2 : ℚ) ^ ((scale b : Int) - 150) = 2 ^ (scale b - (k + 1)) * 2 ^ ((k : Int) - 149) := by
      rw [← zpow_natCast, ← zpow_add₀ two_ne_zero]
      congr 1
      omega
    rw [value_eq, hexp, signOf]
    push_cast
    ring
  · refine .inr ⟨by omega, ?_⟩
    have hexp : (2 : ℚ) ^ ((scale b : Int) - 150) * 2 ≤ 2 ^ ((k : Int) - 149) := by
      rw [← zpow_add_one₀ two_ne_zero]
      exact zpow_le_zpow_right₀ one_le_two (by omega)
    have hm : (mant b : ℚ) < 2 ^ 24 := by exact_mod_cast mant_lt b
    have hpos : (0 : ℚ) < 2 ^ ((scale b : Int) - 150) := by positivity
    rw [value_eq, abs_mul, abs_mul, abs_signOf, one_mul, Nat.abs_cast, abs_of_pos hpos]
    nlinarith

/-- Significand `sig` above exponent `k`, as `roundPack` puts them together, with the carry into the next exponent
that a significand of 2^24 makes. -/
theorem value_pack (s : Bool) {k sig : Nat} (hsig : sig ≤ 2 ^ 24) (hnorm : k = 0 ∨ 2 ^ 23 ≤ sig)
    (hfin : k * 2 ^ 23 + sig < 255 * 2 ^ 23) :
    isFinite (pack s (k * 2 ^ 23 + sig)) = true ∧
      value (pack s (k * 2 ^ 23 + sig)) = signOf s * (sig * 2 ^ ((k : Int) - 149)) := by
  have hmag : k * 2 ^ 23 + sig < 2 ^ 31 := by omega
  refine ⟨?_, ?_⟩
  · rw [isFinite_iff, expField_pack s hmag]
    omega
  · rw [value_eq, mant, scale, neg_pack s hmag, expField_pack s hmag, fracField_pack s hmag, mul_assoc]
    congr 1
    rcases lt_or_ge sig (2 ^ 23) with hsub | hge
    · obtain rfl : k = 0 := by omega
      rw [if_pos (by omega), show (0 * 2 ^ 23 + sig) % 2 ^ 23 = sig by omega,
        show (0 * 2 ^ 23 + sig) / 2 ^ 23 = 0 by omega]
      norm_num
    rcases hsig.lt_or_eq with hlt | rfl
    · rw [if_neg (by omega), show (k * 2 ^ 23 + sig) % 2 ^ 23 + 2 ^ 23 = sig by omega,
        show (((max ((k * 2 ^ 23 + sig) / 2 ^ 23) 1 : Nat) : Int)) - 150 = k - 149 by omega]
    · rw [if_neg (by omega), show (k * 2 ^ 23 + 2 ^ 24) % 2 ^ 23 + 2 ^ 23 = 2 ^ 23 by omega,
        show (((max ((k * 2 ^ 23 + 2 ^ 24) / 2 ^ 23) 1 : Nat) : Int)) - 150 = k - 149 + 1 by omega,
        zpow_add_one₀ two_ne_zero]
      push_cast
      ring

/-! ### Rounding a number that is not negative (44_requantization.md R300) -/

section
variable {x u : ℚ} {n : Nat} (hu : 0 < u) (h : NearestEven (x / u) n)
include hu

theorem abs_mul_sub (y : ℚ) : |y * u - x| = |y - x / u| * u := by
  rw [show y * u - x = (y - x / u) * u by field_simp, abs_mul, abs_of_pos hu]

include h

/-- The rounded number among the multiples of the unit. -/
theorem NearestEven.le_of_multiple (i : Int) :
    |n * u - x| ≤ |i * u - x| ∧ (|n * u - x| = |i * u - x| → (i * u : ℚ) ≠ n * u → Even n) := by
  obtain ⟨hle, htie⟩ := h.le_of_int i
  rw [abs_mul_sub hu, abs_mul_sub hu]
  exact ⟨mul_le_mul_of_nonneg_right hle hu.le,
    fun heq hne => htie (mul_right_cancel₀ hu.ne' heq) fun hi => hne (by rw [hi])⟩

/-- Below a multiple of the unit that is at most `x` nothing is as near as the rounded number. -/
theorem NearestEven.lt_of_small {b : Nat} (hb : b * u ≤ x) {v : ℚ} (hv : v < b * u) : |n * u - x| < |v - x| := by
  have hle := (h.le_of_multiple hu b).1
  rw [Int.cast_natCast, abs_sub_comm (b * u), abs_of_nonneg (sub_nonneg.2 hb)] at hle
  have := neg_le_abs (v - x)
  linarith

end

section
variable {k sig : Nat} {x : ℚ}

/-- Below the pattern of an infinity: at a tie the odd significand 2^24 - 1 would have been rounded up. -/
theorem lt_overflow (hnear : NearestEven (x / 2 ^ ((k : Int) - 149)) sig) (hnorm : k = 0 ∨ 2 ^ 23 ≤ sig)
    (hhi : x < 2 ^ 24 * 2 ^ ((k : Int) - 149)) (hfin : k * 2 ^ 23 + sig < 255 * 2 ^ 23) :
    x < (2 ^ 25 - 1) * 2 ^ 103 := by
  rcases le_or_gt k 252 with hk | hk
  · have hunit : (2 : ℚ) ^ ((k : Int) - 149) ≤ 2 ^ (103 : Int) := zpow_le_zpow_right₀ one_le_two (by omega)
    norm_num at hunit ⊢
    linarith
  · obtain rfl : k = 253 := by omega
    by_contra hge
    have hz : (2 : ℚ) ^ 24 - 1 / 2 ≤ x / 2 ^ (((253 : Nat) : Int) - 149) := by
      rw [le_div_iff₀ (by positivity)]
      norm_num at hge ⊢
      linarith
    obtain ⟨hle, htie⟩ := hnear
    have hsig : (sig : ℚ) ≤ 2 ^ 24 - 1 := by
      have : sig + 1 ≤ 2 ^ 24 := by omega
      have : (sig : ℚ) + 1 ≤ 2 ^ 24 := by exact_mod_cast this
      linarith
    have habs := neg_le_abs ((sig : ℚ) - x / 2 ^ (((253 : Nat) : Int) - 149))
    have heven := htie (by linarith)
    obtain rfl : sig = 2 ^ 24 - 1 := by
      have : (2 : ℚ) ^ 24 ≤ sig + 1 := by linarith
      have : 2 ^ 24 ≤ sig + 1 := by exact_mod_cast this
      omega
    revert heven
    decide

/-- From the pattern of an infinity on. -/
theorem overflow_le (hnear : NearestEven (x / 2 ^ ((k : Int) - 149)) sig) (hsig : sig ≤ 2 ^ 24)
    (hlo : k = 0 ∨ 2 ^ 23 * 2 ^ ((k : Int) - 149) ≤ x) (hinf : 255 * 2 ^ 23 ≤ k * 2 ^ 23 + sig) :
    (2 ^ 25 - 1) * 2 ^ 103 ≤ x := by
  rcases le_or_gt 254 k with hk | hk
  · have hunit : (2 : ℚ) ^ (105 : Int) ≤ 2 ^ ((k : Int) - 149) := zpow_le_zpow_right₀ one_le_two (by omega)
    have hx := hlo.resolve_left (by omega)
    norm_num at hunit ⊢
    linarith
  · obtain rfl : k = 253 := by omega
    obtain rfl : sig = 2 ^ 24 := by omega
    have hle := hnear.1
    have habs := le_abs_self (((2 ^ 24 : Nat) : ℚ) - x / 2 ^ (((253 : Nat) : Int) - 149))
    have hz : (2 : ℚ) ^ 24 - 1 / 2 ≤ x / 2 ^ (((253 : Nat) : Int) - 149) := by
      push_cast at habs hle ⊢
      linarith
    rw [le_div_iff₀ (by positivity)] at hz
    norm_num at hz ⊢
    linarith

end

/-- Every finite pattern is a multiple of the unit, or too small to be as near as the rounded number. -/
theorem NearestEven.le_of_value (s : Bool) {k sig : Nat} {x : ℚ}
    (hnear : NearestEven (x / 2 ^ ((k : Int) - 149)) sig) (hlo : k = 0 ∨ 2 ^ 23 * 2 ^ ((k : Int) - 149) ≤ x)
    (y : Word) :
    |sig * 2 ^ ((k : Int) - 149) - x| ≤ |signOf s * value y - x| ∧
      (|sig * 2 ^ ((k : Int) - 149) - x| = |signOf s * value y - x| →
        signOf s * value y ≠ sig * 2 ^ ((k : Int) - 149) → Even sig) := by
  have hu : (0 : ℚ) < 2 ^ ((k : Int) - 149) := by positivity
  rcases value_multiple_or_small y (k := k) with ⟨i, hi⟩ | ⟨hk, hsmall⟩
  · have hmul : signOf s * value y = ((if s then -i else i : Int) : ℚ) * 2 ^ ((k : Int) - 149) := by
      rw [hi]
      cases s <;> simp [signOf]
    rw [hmul]
    exact hnear.le_of_multiple hu _
  · have hlt : |sig * 2 ^ ((k : Int) - 149) - x| < |signOf s * value y - x| := by
      refine hnear.lt_of_small hu (b := 2 ^ 23) (by exact_mod_cast hlo.resolve_left hk) ?_
      refine (le_abs_self _).trans_lt ?_
      rw [abs_mul, abs_signOf, one_mul]
      exact_mod_cast hsmall
    exact ⟨hlt.le, fun heq => absurd heq hlt.ne⟩

/-- `x` in units of 2^(k - 149), rounded and packed with its exponent, is `x` rounded as R300 says: it is nearest
among the numbers, and it reaches the pattern of an infinity where `x` overflows. -/
theorem roundsTo_pack (s : Bool) {k sig : Nat} {x : ℚ} (hnear : NearestEven (x / 2 ^ ((k : Int) - 149)) sig)
    (hlo : k = 0 ∨ 2 ^ 23 * 2 ^ ((k : Int) - 149) ≤ x) (hhi : x < 2 ^ 24 * 2 ^ ((k : Int) - 149)) (hx : 0 ≤ x) :
    RoundsTo (signOf s * x) (pack s (min 0x7F800000 (k * 2 ^ 23 + sig))) := by
  have hu : (0 : ℚ) < 2 ^ ((k : Int) - 149) := by positivity
  have hsig : sig ≤ 2 ^ 24 := hnear.le_of_lt (by rw [div_lt_iff₀ hu]; exact_mod_cast hhi)
  have hnorm : k = 0 ∨ 2 ^ 23 ≤ sig :=
    hlo.imp_right fun hlo => hnear.le_of_le (by rw [le_div_iff₀ hu]; exact_mod_cast hlo)
  by_cases hfin : k * 2 ^ 23 + sig < 255 * 2 ^ 23
  · obtain ⟨hr, hval⟩ := value_pack s hsig hnorm hfin
    rw [min_eq_right (by omega)]
    refine .inl ⟨hr, ?_, fun y _ => ?_⟩
    · rw [abs_mul, abs_signOf, one_mul, abs_of_nonneg hx]
      exact lt_overflow hnear hnorm hhi hfin
    · obtain ⟨hle, htie⟩ := hnear.le_of_value s hlo y
      rw [abs_sub_signOf_mul, abs_sub_signOf_mul, hval, signOf_mul_signOf_mul]
      refine ⟨hle, fun heq hne => ?_⟩
      have heven := Nat.even_iff.1 (htie heq fun h => hne (by rw [← h, signOf_mul_signOf_mul]))
      rw [getLsbD_zero_pack s (by omega)]
      exact decide_eq_false (by omega)
  · have hover := overflow_le hnear hsig hlo (by omega)
    rw [min_eq_left (by omega)]
    cases s with
    | false => exact .inr (.inl ⟨rfl, by simpa [signOf] using hover⟩)
    | true => exact .inr (.inr ⟨rfl, by simpa [signOf] using hover⟩)

/-! ### The significand that `roundPack` computes -/

/-- The significand of m × 2^e in units of `ulpExp m e`, rounded. -/
def significand (m : Nat) (e : Int) : Nat :=
  if ulpExp m e ≤ e then m * 2 ^ (e - ulpExp m e).toNat else divRne m (ulpExp m e - e).toNat

theorem roundPack_of_ne_zero (s : Bool) {m : Nat} (hm : m ≠ 0) (e : Int) :
    roundPack s m e = pack s (min 0x7F800000 ((ulpExp m e + 149).toNat * 2 ^ 23 + significand m e)) := if_neg hm

theorem nearestEven_significand (m : Nat) (e : Int) :
    NearestEven (m * 2 ^ e / 2 ^ ulpExp m e) (significand m e) := by
  rw [mul_div_assoc, ← zpow_sub₀ two_ne_zero, significand]
  split
  · next h =>
    obtain ⟨d, hd⟩ := Int.eq_ofNat_of_zero_le (sub_nonneg.2 h)
    rw [hd, zpow_natCast, Int.toNat_natCast]
    exact_mod_cast nearestEven_self (m * 2 ^ d)
  · next h =>
    obtain ⟨d, hd⟩ := Int.eq_ofNat_of_zero_le (show 0 ≤ ulpExp m e - e by omega)
    rw [← neg_sub, hd, zpow_neg, zpow_natCast, Int.toNat_natCast, ← div_eq_mul_inv]
    exact nearestEven_divRne m d

/-- A significand of 24 bits, or of fewer at the subnormal spacing. -/
theorem ulpExp_bounds {m : Nat} (hm : m ≠ 0) (e : Int) :
    (m * 2 ^ e : ℚ) < 2 ^ 24 * 2 ^ ulpExp m e ∧
      (ulpExp m e = -149 ∨ (2 : ℚ) ^ 23 * 2 ^ ulpExp m e ≤ m * 2 ^ e) := by
  have hpos : (0 : ℚ) < 2 ^ e := by positivity
  have hlo : (2 : ℚ) ^ ((m.log2 : Int) + e) ≤ m * 2 ^ e := by
    rw [zpow_add₀ two_ne_zero, zpow_natCast]
    exact mul_le_mul_of_nonneg_right (by exact_mod_cast Nat.log2_self_le hm) hpos.le
  have hhi : (m * 2 ^ e : ℚ) < 2 ^ ((m.log2 : Int) + e + 1) := by
    rw [add_right_comm, zpow_add₀ two_ne_zero]
    exact mul_lt_mul_of_pos_right (by exact_mod_cast Nat.lt_log2_self) hpos
  have hjoin (n : Nat) : (2 : ℚ) ^ n * 2 ^ ulpExp m e = 2 ^ ((n : Int) + ulpExp m e) := by
    rw [zpow_add₀ two_ne_zero, zpow_natCast]
  rw [hjoin, hjoin]
  refine ⟨hhi.trans_le (zpow_le_zpow_right₀ one_le_two ?_), ?_⟩
  · unfold ulpExp
    omega
  · rcases le_or_gt ((m.log2 : Int) + e - 23) (-149) with h | h
    · exact .inl (max_eq_left h)
    · refine .inr (le_trans (le_of_eq ?_) hlo)
      rw [ulpExp, max_eq_right h.le]
      congr 1
      omega

/-- `roundPack` rounds the exact value once (44_requantization.md R300). -/
theorem roundsTo_roundPack (s : Bool) (m : Nat) (e : Int) :
    RoundsTo (signOf s * (m * 2 ^ e)) (roundPack s m e) := by
  by_cases hm : m = 0
  · have hzero := roundsTo_pack s (k := 0) (sig := 0) (x := 0) (by simp [NearestEven]) (.inl rfl)
      (by positivity) le_rfl
    simpa [hm, roundPack_zero] using hzero
  · have hk : ((ulpExp m e + 149).toNat : Int) - 149 = ulpExp m e := by
      unfold ulpExp
      omega
    obtain ⟨hhi, hlo⟩ := ulpExp_bounds hm e
    rw [roundPack_of_ne_zero s hm]
    refine roundsTo_pack s ?_ ?_ ?_ (by positivity)
    · rw [hk]
      exact nearestEven_significand m e
    · rw [hk]
      exact hlo.imp_left fun h => by omega
    · rw [hk]
      exact hhi

/-! ### The exact product and the exact sum -/

theorem value_mul_value (a b : Word) :
    value a * value b =
      signOf (neg a != neg b) * ((mant a * mant b : Nat) * 2 ^ ((scale a : Int) + scale b - 300)) := by
  have hexp : (scale a : Int) + scale b - 300 = (scale a - 150) + (scale b - 150) := by ring
  rw [value_eq, value_eq, signOf_bne, hexp, zpow_add₀ two_ne_zero]
  push_cast
  ring

theorem value_eq_aligned (b : Word) {low : Nat} (h : low ≤ scale b) :
    value b = aligned b low * 2 ^ ((low : Int) - 150) := by
  have hexp : (2 : ℚ) ^ ((scale b : Int) - 150) = 2 ^ (scale b - low) * 2 ^ ((low : Int) - 150) := by
    rw [← zpow_natCast, ← zpow_add₀ two_ne_zero]
    congr 1
    omega
  rw [value_eq, hexp, aligned, signOf]
  cases neg b <;> simp <;> ring

theorem value_add_value (a b : Word) :
    value a + value b = alignedSum a b * 2 ^ (((min (scale a) (scale b) : Nat) : Int) - 150) := by
  rw [value_eq_aligned a (min_le_left _ _), value_eq_aligned b (min_le_right _ _), alignedSum]
  push_cast
  ring

theorem cast_eq_signOf_mul_natAbs (i : Int) : (i : ℚ) = signOf (decide (i < 0)) * i.natAbs := by
  by_cases h : i < 0
  · simp [signOf, h, abs_of_neg]
  · simp [signOf, h, abs_of_nonneg (not_lt.1 h)]

/-- Settles O52: the exact product and the exact sum are a sign, a natural number and a power of two, which
`roundPack` rounds. -/
theorem floatRoundsToNearest : Obligations.FloatRoundsToNearest := by
  intro a b ha hb
  refine ⟨?_, ?_⟩
  · rw [value_mul_value, mul_of_isFinite ha hb]
    exact roundsTo_roundPack _ _ _
  · rw [value_add_value, add_of_isFinite ha hb]
    split
    · next h =>
      have := roundsTo_roundPack (neg a && neg b) 0 0
      simpa [h, roundPack_zero] using this
    · rw [cast_eq_signOf_mul_natAbs, mul_assoc]
      exact roundsTo_roundPack _ _ _

end Sys2Proof.Machine.F32

/-! SUPPORT. The proofs of the family 45_decomposer: what DECOMP stores (O30), the bounds of the decomposition
(O31), and the residue classes as a partition of the ring-axis outputs (O32). -/

namespace Sys2Proof.Machine

/-! ### DECOMP (45_decomposer.md R330, R331) -/

/-- Dilation and stride are positive, so that the gcd of their natural numbers is that of the integers. -/
theorem Axes.Legal.commonDivisor_eq_gcd {x : Axes} (hx : x.Legal) : x.commonDivisor = Int.gcd x.dA x.sA := by
  obtain ⟨hd, -⟩ := hx.dilation
  obtain ⟨hs, -⟩ := hx.stride
  rw [Axes.commonDivisor, Int.gcd, ← Int.natAbs_of_nonneg hd.le, ← Int.natAbs_of_nonneg hs.le]
  rfl

/-- Settles O30: DECOMP is ready in an open call, and its three registers hold their values untruncated. -/
theorem decompStoresDecomposition : Obligations.DecompStoresDecomposition := by
  intro s ho
  refine ⟨(decompose s).book.decG, (decompose s).book.decCount, (decompose s).book.decRstride, ?_,
    fun hc => ?_⟩
  · rw [exec, execDecomp, (needOpen_eq_none _).2 ho, runCommand_none]
    rfl
  · have hstored := decompositionStored_decompose hc
    rw [← hc.axes.commonDivisor_eq_gcd]
    exact ⟨hstored.g, hstored.count, hstored.rstride⟩

/-! ### The bounds of the decomposition (45_decomposer.md R331) -/

/-- Without dilation there is one residue class, with the stride of the ring axis. -/
theorem Axes.Legal.decomposition_of_dilation_one {x : Axes} (hx : x.Legal) (hd : x.dA = 1) :
    x.commonDivisor = 1 ∧ x.classCount = 1 ∧ x.reducedStride = x.sA := by
  have hl := hx.lattice
  have hg : x.commonDivisor = 1 := le_antisymm (hd ▸ hx.commonDivisor_le) hl.divisor
  have hcount : x.classCount = 1 := le_antisymm (hd ▸ hx.classCount_le) hl.count_pos
  have hstride := hl.stride
  rw [hg, one_mul] at hstride
  exact ⟨hg, hcount, hstride⟩

/-- Settles O31: the lattice of a legal ring axis, with its bounds. -/
theorem decompositionLattice : Obligations.DecompositionLattice := by
  intro c hc
  have hx := hc.axes
  have hl := hx.lattice
  exact ⟨hl.count, hl.stride, hl.stride_pos, hx.reducedStride_le, hl.count_pos, hx.classCount_le,
    hx.decomposition_of_dilation_one, hl.entryCoord_eq⟩

/-! ### The residue classes (45_decomposer.md R333) -/

/-- `n < ceildiv(a, b)` without the division (00_scope.md R12). -/
theorem lt_ceilDiv_iff {n a b : Int} (hb : 0 < b) : n < ceilDiv a b ↔ n * b < a := by
  rw [ceilDiv, lt_neg, Int.ediv_lt_iff_lt_mul hb, neg_mul, neg_lt_neg_iff]

/-- An entry of a class lies before the tensor exactly if it is one of the leading entries. -/
theorem Axes.Legal.lt_subLead_iff {x : Axes} (hx : x.Legal) {r n : Int} (hn : 0 ≤ n)
    (hent : n < x.subEntries r) : n < x.subLead r ↔ x.entryCoord r n < 0 := by
  have hceil := lt_ceilDiv_iff (n := n) (a := x.pA - r * x.sA) hx.dilation.1
  unfold Axes.subLead Axes.entryCoord
  omega

section
variable {x : Axes} (hx : x.Legal)
include hx

/-- Output `o` is number `j` of class `r` exactly if division by COUNT gives quotient `j` and remainder `r`. -/
theorem Axes.Legal.output_of_class_iff (o r j : Int) :
    ((0 ≤ r ∧ r < x.classCount) ∧ (0 ≤ j ∧ j < x.subOutputs r) ∧ o = j * x.classCount + r) ↔
      (0 ≤ o ∧ o < x.outA) ∧ o % x.classCount = r ∧ o / x.classCount = j := by
  have hc : 0 < x.classCount := hx.lattice.count_pos
  constructor
  · rintro ⟨⟨hr0, hr1⟩, ⟨hj0, hj1⟩, rfl⟩
    have hfirst := Int.mul_nonneg hj0 hc.le
    have hdiv := (Int.ediv_emod_unique (a := j * x.classCount + r) (q := j) hc).2 ⟨by ring, hr0, hr1⟩
    exact ⟨⟨by omega, (hx.lt_subOutputs_iff r hj0).1 hj1⟩, hdiv.2, hdiv.1⟩
  · rintro ⟨⟨ho0, ho1⟩, rfl, rfl⟩
    have hj := Int.ediv_nonneg ho0 hc.le
    have ho : o = o / x.classCount * x.classCount + o % x.classCount := (Int.ediv_mul_add_emod o _).symm
    exact ⟨⟨Int.emod_nonneg o hc.ne', Int.emod_lt_of_pos o hc⟩,
      ⟨hj, (hx.lt_subOutputs_iff _ hj).2 (by omega)⟩, ho⟩

theorem Axes.Legal.existsUnique_class {o : Int} (ho : 0 ≤ o ∧ o < x.outA) :
    ∃! rj : Int × Int, (0 ≤ rj.1 ∧ rj.1 < x.classCount) ∧ (0 ≤ rj.2 ∧ rj.2 < x.subOutputs rj.1) ∧
      o = rj.2 * x.classCount + rj.1 := by
  refine ⟨(o % x.classCount, o / x.classCount), (hx.output_of_class_iff o _ _).2 ⟨ho, rfl, rfl⟩, ?_⟩
  rintro ⟨r, j⟩ h
  obtain ⟨-, rfl, rfl⟩ := (hx.output_of_class_iff o r j).1 h
  rfl

theorem Axes.Legal.filter_outputs_eq_image {r : Int} (hr : 0 ≤ r ∧ r < x.classCount) :
    {o ∈ Finset.Ico 0 x.outA | o % x.classCount = r} =
      (Finset.Ico 0 (x.subOutputs r)).image (· * x.classCount + r) := by
  ext o
  simp only [Finset.mem_filter, Finset.mem_image, Finset.mem_Ico]
  constructor
  · rintro ⟨ho, hmod⟩
    obtain ⟨-, hj, heq⟩ := (hx.output_of_class_iff o r _).2 ⟨ho, hmod, rfl⟩
    exact ⟨_, hj, heq.symm⟩
  · rintro ⟨j, hj, rfl⟩
    obtain ⟨ho, hmod, -⟩ := (hx.output_of_class_iff _ r j).1 ⟨hr, hj, rfl⟩
    exact ⟨ho, hmod⟩

/-- `NSUB(r)` counts the outputs of class `r`. -/
theorem Axes.Legal.card_filter_outputs {r : Int} (hr : 0 ≤ r ∧ r < x.classCount) :
    ({o ∈ Finset.Ico 0 x.outA | o % x.classCount = r}.card : Int) = x.subOutputs r := by
  have hc : x.classCount ≠ 0 := by linarith [hx.lattice.count_pos]
  have hinj : Function.Injective (· * x.classCount + r) :=
    (add_left_injective r).comp (mul_left_injective₀ hc)
  rw [hx.filter_outputs_eq_image hr, Finset.card_image_of_injective _ hinj, Int.card_Ico, sub_zero,
    Int.toNat_of_nonneg (hx.subOutputs_nonneg r)]

/-- The remainder by COUNT sorts the O_a outputs into the classes. -/
theorem Axes.Legal.sum_subOutputs :
    ∑ r ∈ Finset.range x.classCount.toNat, x.subOutputs r = x.outA := by
  have hc : 0 < x.classCount := hx.lattice.count_pos
  have hclass : Set.MapsTo (· % x.classCount) (Finset.Ico 0 x.outA : Finset Int)
      ((Finset.range x.classCount.toNat).map Nat.castEmbedding : Finset Int) := fun o _ => by
    have h0 := Int.emod_nonneg o hc.ne'
    have h1 := Int.emod_lt_of_pos o hc
    exact Finset.mem_map.2 ⟨(o % x.classCount).toNat, Finset.mem_range.2 (by omega), Int.toNat_of_nonneg h0⟩
  have hcard := Finset.card_eq_sum_card_fiberwise hclass
  rw [Finset.sum_map, Int.card_Ico, sub_zero] at hcard
  rw [← Int.toNat_of_nonneg hx.output.1.le, hcard, Nat.cast_sum]
  refine Finset.sum_congr rfl fun r hr => (hx.card_filter_outputs ⟨Int.natCast_nonneg r, ?_⟩).symm
  have := Finset.mem_range.1 hr
  omega

/-- Every tap of every output of a class reads an entry that the class consumes. -/
theorem Axes.Legal.tap_entry_lt {r j ta : Int} (hj : 0 ≤ j ∧ j < x.subOutputs r) (hta : 0 ≤ ta ∧ ta < x.kA) :
    0 ≤ j * x.reducedStride + ta ∧ j * x.reducedStride + ta < x.subEntries r := by
  have hstride := hx.lattice.stride_pos
  have hfirst := Int.mul_nonneg hj.1 (by omega : 0 ≤ x.reducedStride)
  have hlast := Int.mul_le_mul_of_nonneg_right (by omega : j ≤ x.subOutputs r - 1)
    (by omega : 0 ≤ x.reducedStride)
  rw [Axes.subEntries_of_pos (by omega)]
  omega

end

/-- Settles O32: division by COUNT finds the class and the index of an output, and an entry's coordinate is
negative for as many entries as LEAD says. -/
theorem classesPartitionOutputs : Obligations.ClassesPartitionOutputs := by
  intro c hc
  have hx := hc.axes
  exact ⟨fun o ho0 ho1 => hx.existsUnique_class ⟨ho0, ho1⟩, hx.sum_subOutputs, fun r _ _ =>
    ⟨fun j ta hj0 hj1 hta0 hta1 => hx.tap_entry_lt ⟨hj0, hj1⟩ ⟨hta0, hta1⟩,
      fun n hn0 hn1 => hx.lt_subLead_iff hn0 hn1⟩⟩

end Sys2Proof.Machine

/-! SUPPORT. The proofs of the family 46_conv_sequencer about call control and the reference function: NOP (O21),
the rejection of a configuration by BEGIN and CONV (O27), and what REF depends on (O60). -/

namespace Sys2Proof.Machine

/-! ### NOP (46_conv_sequencer.md R350) -/

/-- Settles O21: the effect of NOP is `done(0)`. -/
theorem nopCompletes : Obligations.NopCompletes := fun _ => rfl

/-! ### A configuration that is rejected (46_conv_sequencer.md R351, R352; 60_exceptions.md R394) -/

section
variable {p : Config.Params} {c : Cfg} {m : Memory} {e : CmdError}

/-- The register checks come first. -/
theorem callVerdict_of_failure (h : firstFailure [checkShape c, checkCapacity p c, checkArgs c] = some e) :
    callVerdict p c m = .reject e := by
  simp only [callVerdict, h]

/-- Step A9 comes next, if the shift array may be read. -/
theorem callVerdict_of_shiftArray (hchecks : firstFailure [checkShape c, checkCapacity p c, checkArgs c] = none)
    (hplaced : shiftArrayPlaced c = true) (h : checkShiftArray c m = some e) : callVerdict p c m = .reject e := by
  simp [callVerdict, hchecks, hplaced, h]

end

theorem startCall_of_reject {s : State} {e : CmdError} (h : callVerdict s.params s.cfg s.mem = .reject e)
    (go : State → State) : startCall go s = .next (s.close.raiseErr e) := by
  simp only [startCall, h]

/-- Settles O27: whichever check fails first, the verdict is its error, and BEGIN and CONV answer it alike. -/
theorem beginAndConvReject : Obligations.BeginAndConvReject := by
  intro s e hfail
  have hverdict : callVerdict s.params s.cfg s.mem = .reject e := by
    rcases hfail with hfirst | ⟨hshape, hcap, hargs, hplaced, hshift⟩
    · exact callVerdict_of_failure hfirst
    · refine callVerdict_of_shiftArray ?_ ?_ hshift
      · rw [hshape, hcap, hargs]
        rfl
      · rw [shiftArrayPlaced, hplaced, Bool.or_true]
  exact ⟨startCall_of_reject hverdict id, startCall_of_reject hverdict convolve⟩

/-! ### What REF depends on (46_conv_sequencer.md R355, R358) -/

/-- Only the precisions with arrays look at the multiplier and the shift (44_requantization.md R282 to R287). -/
theorem finishWith_congr {c : Cfg} {mult mult' shift shift' : Int}
    (h : c.precision.perChannel = true → mult' = mult ∧ shift' = shift) (acc : Int) :
    finishWith c acc mult' shift' = finishWith c acc mult shift := by
  cases hper : c.precision.perChannel with
  | true =>
    obtain ⟨rfl, rfl⟩ := h hper
    rfl
  | false =>
    cases hp : c.precision with
    | pc8 | s8s16 => cases (congrArg Prec.perChannel hp).symm.trans hper
    | f32 | i8 | i16 | asym8 => simp only [finishWith, hp]

/-- Two memories hold the same input, kernel, bias, multipliers and shifts, each at the addresses of its own
configuration. -/
structure SameOperands (c c' : Cfg) (m m' : Memory) : Prop where
  /-- The input tensor. -/
  input : ∀ ic y x : Int, 0 ≤ ic → ic < c.inC.toInt → 0 ≤ y → y < c.inH.toInt → 0 ≤ x → x < c.inW.toInt →
    m'.load (c'.inputAddr ic y x) c.precision.tIn = m.load (c.inputAddr ic y x) c.precision.tIn
  /-- The kernel tensor. -/
  kernel : ∀ oc ky kx : Int, 0 ≤ oc → oc < c.outChannels → 0 ≤ ky → ky < c.kH.toInt → 0 ≤ kx →
    kx < c.kW.toInt →
    m'.load (c'.kernelAddr oc ky kx) c.precision.tK = m.load (c.kernelAddr oc ky kx) c.precision.tK
  /-- The bias array, and the arrays of the precisions that use them. -/
  arrays : ∀ oc : Int, 0 ≤ oc → oc < c.outChannels →
    biasElem c' m' oc = biasElem c m oc ∧ (c.precision.perChannel = true →
      multElem c' m' oc = multElem c m oc ∧ shiftElem c' m' oc = shiftElem c m oc)

section
variable {c : Cfg} {layout : Word} {m m' : Memory} (h : SameOperands c { c with layout := layout } m m')
include h

/-- A sample is read inside the tensor only, and outside both take the pad value. -/
theorem SameOperands.refSample_eq {ic : Int} (hic : 0 ≤ ic ∧ ic < c.inC.toInt) (y x : Int) :
    refSample { c with layout := layout } m' ic y x = refSample c m ic y x := by
  unfold refSample
  dsimp only
  split
  · rename_i hin
    obtain ⟨hy0, hy1, hx0, hx1⟩ := hin
    exact h.input ic y x hic.1 hic.2 hy0 hy1 hx0 hx1
  · rfl

theorem SameOperands.refSum_eq (hmult : 0 < c.chMult.toInt) {oc : Int} (hoc : 0 ≤ oc ∧ oc < c.outChannels)
    (oy ox : Int) : refSum { c with layout := layout } m' oc oy ox = refSum c m oc oy ox := by
  have hic : 0 ≤ oc / c.chMult.toInt ∧ oc / c.chMult.toInt < c.inC.toInt :=
    ⟨Int.ediv_nonneg hoc.1 hmult.le, Int.ediv_lt_of_lt_mul hmult hoc.2⟩
  refine List.foldl_ext _ _ _ fun acc ky hky => List.foldl_ext _ _ _ fun acc kx hkx => ?_
  have hky' : ky < c.kH.toInt.toNat := List.mem_range.1 hky
  have hkx' : kx < c.kW.toInt.toNat := List.mem_range.1 hkx
  have htap := h.kernel oc ky kx hoc.1 hoc.2 (Int.natCast_nonneg ky) (by omega) (Int.natCast_nonneg kx) (by omega)
  have hsample := h.refSample_eq hic (oy * c.strideY.toInt + ky * c.dilY.toInt - c.padY.toInt)
    (ox * c.strideX.toInt + kx * c.dilX.toInt - c.padX.toInt)
  exact congrArg₂ (macStep c acc) hsample htap

theorem SameOperands.refOut_eq (hmult : 0 < c.chMult.toInt) {oc : Int} (hoc : 0 ≤ oc ∧ oc < c.outChannels)
    (oy ox : Int) : refOut { c with layout := layout } m' oc oy ox = refOut c m oc oy ox := by
  obtain ⟨hbias, hscale⟩ := h.arrays oc hoc.1 hoc.2
  rw [refOut, h.refSum_eq hmult hoc, hbias]
  exact finishWith_congr hscale _

end

/-- Settles O60: LAYOUT stands in no formula of REF but those of the addresses. -/
theorem layoutEquivalence : Obligations.LayoutEquivalence := by
  intro c c' m m' hc hlayout hinput hkernel harrays oc oy ox hoc0 hoc1 _ _ _ _
  obtain ⟨layout, rfl⟩ : ∃ layout, c' = { c with layout := layout } := ⟨_, hlayout⟩
  obtain ⟨-, -, hmult⟩ := hc.kernel
  exact SameOperands.refOut_eq ⟨hinput, hkernel, harrays⟩ hmult ⟨hoc0, hoc1⟩ oy ox

end Sys2Proof.Machine

/-! SUPPORT. The proof that CONV computes REF (O59): the outputs of a call and what a REQ_WRITE leaves in each, a
tile of the run, and the loops of CONV followed for one output. -/

namespace Sys2Proof.Machine

/-! ### The outputs of a call (46_conv_sequencer.md R355, 20_memory.md R111, R113) -/

/-- Output channel, ring-axis coordinate and cross-axis coordinate of an output element. -/
structure Cfg.HasOutput (c : Cfg) (oc oa wc : Int) : Prop where
  /-- The output channel. -/
  channel : 0 ≤ oc ∧ oc < c.outChannels
  /-- The ring-axis coordinate. -/
  ring : 0 ≤ oa ∧ oa < c.axes.outA
  /-- The cross-axis coordinate. -/
  cross : 0 ≤ wc ∧ wc < c.axes.outC

/-- REF at the output with these coordinates. -/
def axisOut (c : Cfg) (m : Memory) (oc oa wc : Int) : Int :=
  finishAcc c m oc (addBias c (axisSum c m oc oa wc) (biasElem c m oc))

theorem axisOut_eq_refOut (c : Cfg) (m : Memory) (oc oa wc : Int) :
    axisOut c m oc oa wc = refOut c m oc (c.outputRow oa wc) (c.outputColumn oa wc) := by
  rw [axisOut, axisSum_eq_refSum, refOut]

theorem outputAddrAc_eq (c : Cfg) (oc oa wc : Int) :
    c.outputAddrAc oc oa wc = c.outputAddr oc (c.outputRow oa wc) (c.outputColumn oa wc) := by
  unfold Cfg.outputAddrAc Cfg.outputRow Cfg.outputColumn
  split <;> rfl

section
variable {p : Config.Params} {c : Cfg} (h : ConfigLegal p c)
include h

/-- Memories that differ in the footprint of the call only have the same multipliers and shifts. -/
theorem ConfigLegal.wordElem_congr {ptr : Word} (hr : regionAt ptr c.arrayBytes ∈ c.readRegions) {m m' : Memory}
    (hm : ∀ a, writableByCall p c a = false → m'.read a = m.read a) {oc : Int}
    (hoc : 0 ≤ oc ∧ oc < c.outChannels) : m'.load (ptrPlus ptr (4 * oc)) .s32 = m.load (ptrPlus ptr (4 * oc)) .s32 := by
  have hsize : (ElemType.s32.size : Int) = 4 := rfl
  obtain ⟨h0, h1, hspace⟩ := arrayElem_in (by norm_num) hoc
    (h.placed_of_mem (List.mem_cons_of_mem _ (List.mem_cons_of_mem _ hr)))
  have hbytes : c.arrayBytes = c.outChannels * 4 := rfl
  exact load_eq_of_read_eq (by omega) fun x hx0 hx1 => hm x (h.not_writable hr
    ((regionAt_has_iff _ _ x).2 ⟨by omega, by omega⟩))

theorem ConfigLegal.finishAcc_congr {m m' : Memory}
    (hm : ∀ a, writableByCall p c a = false → m'.read a = m.read a) {oc : Int}
    (hoc : 0 ≤ oc ∧ oc < c.outChannels) (acc : Int) : finishAcc c m' oc acc = finishAcc c m oc acc := by
  refine finishWith_congr (fun hper => ⟨?_, ?_⟩) acc
  · exact h.wordElem_congr (by simp [Cfg.readRegions, hper]) hm hoc
  · exact h.wordElem_congr (by simp [Cfg.readRegions, hper, Cfg.shiftRegion]) hm hoc

section
variable {oc oa wc : Int} (ho : c.HasOutput oc oa wc)
include ho

/-- An output element depends on the bytes of the output tensor only. -/
theorem ConfigLegal.outputElem_congr {m m' : Memory}
    (hm : ∀ a, c.outputRegion.has a = true → m'.read a = m.read a) :
    m'.load (c.outputAddrAc oc oa wc) c.precision.tOut = m.load (c.outputAddrAc oc oa wc) c.precision.tOut := by
  have hsize : (c.precision.tOut.size : Int) = c.precision.esOut := rfl
  obtain ⟨h0, h1, hspace⟩ := h.outputElem_in ho.channel ho.ring ho.cross
  exact load_eq_of_read_eq (by omega) fun x hx0 hx1 =>
    hm x ((regionAt_has_iff _ _ x).2 ⟨by omega, by omega⟩)

/-- Two output elements are the same one or lie apart. -/
theorem ConfigLegal.outputs_apart {oc' oa' wc' : Int} (ho' : c.HasOutput oc' oa' wc') :
    (oc = oc' ∧ oa = oa' ∧ wc = wc') ∨
      (c.outputAddrAc oc oa wc : Int) + c.precision.tOut.size ≤ c.outputAddrAc oc' oa' wc' ∨
      (c.outputAddrAc oc' oa' wc' : Int) + c.precision.tOut.size ≤ c.outputAddrAc oc oa wc := by
  obtain ⟨hoc, hoa, hwc⟩ := ho
  obtain ⟨hoc', hoa', hwc'⟩ := ho'
  have hpl : (regionAt c.outPtr c.outputBytes).placed = true :=
    h.placed_of_mem (by simp [Cfg.regions, Cfg.outputRegion])
  have hes : 0 < c.precision.esOut := by cases c.precision <;> decide
  cases hl : c.channelFirst with
  | true =>
    simp only [Cfg.axes, hl, if_true] at hoa hwc hoa' hwc'
    simp only [Cfg.outputAddrAc, Cfg.outputAddr, hl, if_true]
    refine (arrayElems_apart hes (index3_bounds hoc hoa hwc) (index3_bounds hoc' hoa' hwc') hpl).imp_left fun he => ?_
    obtain ⟨hrow, hcol⟩ := grid_index_inj hwc hwc' he
    exact and_assoc.1 ⟨grid_index_inj hoa hoa' hrow, hcol⟩
  | false =>
    simp only [Cfg.axes, hl] at hoa hwc hoa' hwc'
    have hbytes : c.outputBytes = c.outH.toInt * c.outW.toInt * c.outChannels * c.precision.esOut := by
      unfold Cfg.outputBytes
      ring
    rw [hbytes] at hpl
    simp only [Cfg.outputAddrAc, Cfg.outputAddr, hl]
    refine (arrayElems_apart hes (index3_bounds hwc hoa hoc) (index3_bounds hwc' hoa' hoc') hpl).imp_left fun he => ?_
    obtain ⟨hpixel, hchan⟩ := grid_index_inj hoc hoc' he
    exact ⟨hchan, (grid_index_inj hoa hoa' hpixel).symm⟩

end

end

/-- No command but REQ_WRITE and CONV writes the output tensor (20_memory.md R114, R116). -/
theorem CallOpen.commandWrites_of_output {s : State} (h : CallOpen s) {a : Nat}
    (ha : s.cfg.outputRegion.has a = true) {i : Instr} (hreq : i ≠ .reqWrite) (hconv : i ≠ .conv) :
    commandWrites i s.params s.cfg a = false := by
  obtain ⟨o0, o1, o2, o3⟩ := h.offsets_order
  have hd := h.config.disjoint
  rw [Cfg.regionsDisjoint, Bool.and_eq_true] at hd
  have hscr := Region.not_has_of_disjoint hd.1 ha
  rw [← Bool.not_eq_true, Cfg.scratchRegion, regionAt_has_iff] at hscr
  cases i with
  | nop => rfl
  | getsize => rfl
  | callBegin => rfl
  | decomp => rfl
  | conv => exact absurd rfl hconv
  | reqWrite => exact absurd rfl hreq
  | callEnd => exact inScratch_eq_false_iff.2 (by omega)
  | cbInit => exact inScratch_eq_false_iff.2 (by omega)
  | cbFeed n => exact inScratch_eq_false_iff.2 (by omega)
  | ksClear => exact inScratch_eq_false_iff.2 (by omega)
  | kstage => exact inScratch_eq_false_iff.2 (by omega)
  | macTile n => exact inScratch_eq_false_iff.2 (by omega)

/-! ### What a REQ_WRITE leaves in an output (44_requantization.md R280) -/

section
variable {s : State} (h : Inv s) (hacc : s.status.accValid = true)
include h hacc

theorem Inv.hasOutput_of_tile {t w : Nat} (ht : (t : Int) < s.book.accN.toInt) (hw : (w : Int) < s.cfg.axes.outC) :
    s.cfg.HasOutput s.contextChannel (s.outputCoord t) w :=
  ⟨h.contextChannel_lt (h.flags.acc hacc).1, h.outputCoord_bounds hacc ht, Int.natCast_nonneg w, hw⟩

/-- An output that is none of the tile's stays. -/
theorem Inv.load_reqWriteStores_other {oc oa wc : Int} (ho : s.cfg.HasOutput oc oa wc)
    (hother : ∀ t : Nat, (t : Int) < s.book.accN.toInt → ¬(s.contextChannel = oc ∧ s.outputCoord t = oa)) :
    (s.mem.applyStores (reqWriteStores s)).load (s.cfg.outputAddrAc oc oa wc) s.cfg.precision.tOut =
      s.mem.load (s.cfg.outputAddrAc oc oa wc) s.cfg.precision.tOut := by
  have hconfig := (h.callOpen_of_ring (h.flags.acc hacc).2).config
  obtain ⟨-, hend, hspace⟩ := hconfig.outputElem_in ho.channel ho.ring ho.cross
  refine (h.reqWriteStores_in hacc).load_apart hspace (hend.trans hspace) fun st hst => ?_
  obtain ⟨t, w, ht, hw, rfl⟩ := mem_reqWriteStores.1 hst
  rcases hconfig.outputs_apart (h.hasOutput_of_tile hacc ht hw) ho with ⟨hchan, hcoord, -⟩ | hapart
  · exact absurd ⟨hchan, hcoord⟩ (hother t ht)
  · exact hapart

end

/-! ### One tile of a run (46_conv_sequencer.md R356) -/

/-- In the run from `s` the output element holds REF of the memory in `s`. -/
def OutputDone (s : State) (oc oa wc : Int) (t : State) : Prop :=
  t.mem.load (s.cfg.outputAddrAc oc oa wc) s.cfg.precision.tOut = axisOut s.cfg s.mem oc oa wc

/-- Channel `oc` and ring-axis coordinate `oa` are those of one of the outputs `j0` to `j0 + n - 1` of class `r`
that the filter (`ic`, `m`) computes. -/
def Cfg.InTile (c : Cfg) (r ic m j0 n : Nat) (oc oa : Int) : Prop :=
  ic * c.chMult.toInt + m = oc ∧ ∃ k < n, (j0 + k : Nat) * c.axes.classCount + r = oa

theorem Cfg.inTile_add (c : Cfg) (r ic m j0 n n' : Nat) (oc oa : Int) :
    c.InTile r ic m j0 (n + n') oc oa ↔ c.InTile r ic m j0 n oc oa ∨ c.InTile r ic m (j0 + n) n' oc oa := by
  unfold Cfg.InTile
  rw [← and_or_left]
  refine and_congr_right fun _ => ⟨?_, ?_⟩
  · rintro ⟨k, hk, hcoord⟩
    rcases Nat.lt_or_ge k n with hlt | hge
    · exact .inl ⟨k, hlt, hcoord⟩
    · exact .inr ⟨k - n, by omega, by rwa [show j0 + n + (k - n) = j0 + k by omega]⟩
  · rintro (⟨k, hk, hcoord⟩ | ⟨k, hk, hcoord⟩)
    · exact ⟨k, by omega, hcoord⟩
    · exact ⟨n + k, by omega, by rwa [← Nat.add_assoc]⟩

theorem Cfg.not_inTile_zero (c : Cfg) (r ic m j0 : Nat) (oc oa : Int) : ¬c.InTile r ic m j0 0 oc oa := by
  rintro ⟨-, k, hk, -⟩
  exact absurd hk (Nat.not_lt_zero k)

/-- A run whose accumulators hold the biased sums of REF for the tile of `n` outputs from `j0` of class `r`. -/
structure TileComputed (s : State) (r ic m j0 n : Nat) (t : State) : Prop extends ConvHolds s t where
  /-- The accumulators are valid. -/
  acc : t.status.accValid = true
  /-- The context names the filter. -/
  ctx : t.ctx = filterCtx r ic m j0
  /-- The accumulator registers name the tile. -/
  tile : t.book.accJ0.toInt = j0 ∧ t.book.accN.toInt = n
  /-- The accumulators. -/
  sums : ∀ k w : Nat, k < n → (w : Int) < s.cfg.axes.outC →
    t.loadAcc (k * s.cfg.axes.outC + w) =
      addBias s.cfg (axisSum s.cfg s.mem (ic * s.cfg.chMult.toInt + m)
        ((j0 + k : Nat) * s.cfg.axes.classCount + r) w) (biasElem s.cfg s.mem (ic * s.cfg.chMult.toInt + m))

section
variable {s t : State} {r ic m j0 n : Nat}

theorem ConvRun.legal (h : ConvRun s t) : ConfigLegal s.params s.cfg := h.params ▸ h.cfg ▸ h.callOpen.config

theorem ConvRun.contextChannel_eq (h : ConvRun s t) (hf : s.cfg.HasFilter r ic m)
    (hctx : t.ctx = filterCtx r ic m j0) : t.contextChannel = ic * s.cfg.chMult.toInt + m := by
  rw [State.contextChannel, hctx, h.cfg]
  simp only [filterCtx]
  rw [toInt_ofNat_of_le (hf.channel.le.trans (toInt_le_countMax _)),
    toInt_ofNat_of_le (hf.mult.le.trans (toInt_le_countMax _))]

/-- A tile of the run accumulates the sums of REF at its outputs. -/
theorem ConvHolds.tapSum_eq (h : ConvHolds s t) (hf : s.cfg.HasFilter r ic m) (hpre : macTilePre n t = none)
    (hwin : t.windowMisses n = none) (hctx : t.ctx = filterCtx r ic m j0) (hj0 : (BitVec.ofNat 32 j0).toInt = j0)
    {k w : Nat} (hk : k < n) (hw : (w : Int) < s.cfg.axes.outC) :
    t.tapSum k w = axisSum s.cfg s.mem (ic * s.cfg.chMult.toInt + m)
      ((j0 + k : Nat) * s.cfg.axes.classCount + r) w := by
  obtain ⟨-, hst, hks, -⟩ := (macTilePre_eq_none n t).1 hpre
  rw [h.inv.tapSum_eq_axisSum (h.filled.holds hst) (h.kernel.taps hks) hpre hwin
    ⟨Int.natCast_nonneg k, by omega⟩ ⟨Int.natCast_nonneg w, by rwa [h.cfg]⟩, h.contextChannel_eq hf hctx, h.cfg,
    h.legal.axisSum_congr h.frame hf.outChannel, hctx]
  simp only [filterCtx]
  rw [hj0, h.toInt_resClass hf.resClass, Nat.cast_add]

theorem ConvHolds.tileBias_eq (h : ConvHolds s t) (hf : s.cfg.HasFilter r ic m)
    (hctx : t.ctx = filterCtx r ic m j0) :
    t.tileBias = biasElem s.cfg s.mem (ic * s.cfg.chMult.toInt + m) := by
  rw [State.tileBias, h.contextChannel_eq hf hctx, h.cfg, h.legal.biasElem_congr h.frame hf.outChannel]

/-- MAC_TILE stores the biased sums of REF. -/
theorem ConvHolds.computeTile (h : ConvHolds s t) (hf : s.cfg.HasFilter r ic m) (hpre : macTilePre n t = none)
    (hwin : t.windowMisses n = none) (hctx : t.ctx = filterCtx r ic m j0) (hj0 : (BitVec.ofNat 32 j0).toInt = j0) :
    TileComputed s r ic m j0 n (computeTile n t) := by
  obtain ⟨-, -, -, hn, hplace⟩ := (macTilePre_eq_none n t).1 hpre
  have hnout := toInt_le_countMax t.book.subNout
  refine ⟨h.command (i := .macTile n) ⟨hpre, hwin⟩ h.flags, rfl, hctx, ⟨?_, ?_⟩, fun k w hk hw => ?_⟩
  · have hreg : (Machine.computeTile n t).book.accJ0 = t.ctx.j0 := rfl
    rw [hreg, hctx]
    exact hj0
  · exact toInt_ofNat_of_le (by omega)
  · have hload := h.callOpen.load_macTileStores t.mem hn.2 hk (w := w) (by rwa [h.cfg])
    rw [h.tapSum_eq hf hpre hwin hctx hj0 hk hw, h.tileBias_eq hf hctx] at hload
    rw [h.cfg] at hload
    rw [loadAcc_eq, computeTile_cfg, h.cfg]
    exact hload

/-- A component command other than REQ_WRITE leaves every output alone. -/
theorem ConvHolds.outputDone_command (h : ConvHolds s t) {oc oa wc : Int} (ho : s.cfg.HasOutput oc oa wc)
    {i : Instr} (hready : CommandReady i t) (hreq : i ≠ .reqWrite) (hconv : i ≠ .conv)
    (hdone : OutputDone s oc oa wc t) : OutputDone s oc oa wc (commandEffect i t) := by
  refine (h.legal.outputElem_congr ho fun a ha => ?_).trans hdone
  exact h.inv.read_commandEffect hready (h.callOpen.commandWrites_of_output (by rwa [h.cfg]) hreq hconv)

/-- REQ_WRITE of a tile brings its outputs to REF and leaves the others alone. -/
theorem TileComputed.writeTile (h : TileComputed s r ic m j0 n t) (hf : s.cfg.HasFilter r ic m) {oc oa wc : Int}
    (ho : s.cfg.HasOutput oc oa wc) (hdone : OutputDone s oc oa wc t ∨ s.cfg.InTile r ic m j0 n oc oa) :
    OutputDone s oc oa wc (writeTile t) := by
  have hchan := h.contextChannel_eq hf h.ctx
  have hcoord (k : Nat) : t.outputCoord k = (j0 + k : Nat) * s.cfg.axes.classCount + r := by
    rw [h.inv.outputCoord_eq h.acc, h.tile.1, h.cfg, h.ctx, Nat.cast_add]
    simp only [filterCtx]
    rw [h.toInt_resClass hf.resClass]
  by_cases htile : s.cfg.InTile r ic m j0 n oc oa
  · obtain ⟨rfl, k, hk, rfl⟩ := htile
    obtain ⟨w, rfl⟩ := Int.eq_ofNat_of_zero_le ho.cross.1
    have hload := h.inv.load_reqWriteStores h.acc (t := k) (w := w) (by have := h.tile.2; omega)
      (by rw [h.cfg]; exact ho.cross.2)
    rw [hchan, hcoord, h.cfg, h.sums k w hk ho.cross.2, h.legal.finishAcc_congr h.frame ho.channel] at hload
    exact hload
  · have hother := h.inv.load_reqWriteStores_other h.acc (h.cfg ▸ ho) fun k hk hsame => htile ?_
    · rw [h.cfg] at hother
      exact hother.trans (hdone.resolve_right htile)
    · rw [hchan, hcoord] at hsame
      exact ⟨hsame.1, k, by have := h.tile.2; omega, hsame.2⟩

end

/-! ### Loops that reach an output (46_conv_sequencer.md R356) -/

/-- From `t` the run goes on to `u`, where the output holds REF if it did in `t` or if `E`. -/
structure Reaches (s : State) (oc oa wc : Int) (E : Prop) (t u : State) : Prop where
  /-- The run goes on. -/
  run : ConvHolds s u
  /-- The output. -/
  output : OutputDone s oc oa wc t ∨ E → OutputDone s oc oa wc u

section
variable {s t : State} {r ic m : Nat} {oc oa wc : Int} (ho : s.cfg.HasOutput oc oa wc)
include ho

/-- One tile of CONV. -/
theorem TilesDone.convTile_reaches {done n : Nat} (h : TilesDone s r ic m done t) (hf : s.cfg.HasFilter r ic m)
    (hn : 1 ≤ n ∧ n ≤ s.params.rIter) (hplace : (done + n : Int) ≤ s.cfg.axes.subOutputs r) :
    OutputDone s oc oa wc t ∨ s.cfg.InTile r ic m done n oc oa →
      OutputDone s oc oa wc (Machine.convTile done n t) := by
  obtain ⟨hj0, hfeed, hmac⟩ := h.tile_ready hn hplace
  have hset := h.toConvHolds.writeJ0 (BitVec.ofNat 32 done)
  have hwin := (h.nextTile hn hplace).window_resident hfeed hset.inv
  have hfed : ConvHolds s (feedRing n (t.writeJ0 (BitVec.ofNat 32 done))) :=
    hset.command (i := .cbFeed n) hfeed h.flags
  have hctx : (t.writeJ0 (BitVec.ofNat 32 done)).ctx = filterCtx r ic m done := by
    rw [writeJ0_ctx, h.ctx]
    rfl
  refine fun hdone => (hfed.computeTile hf hmac hwin hctx hj0).writeTile hf ho (hdone.imp_left fun hdone => ?_)
  have hstill : OutputDone s oc oa wc (feedRing n (t.writeJ0 (BitVec.ofNat 32 done))) :=
    hset.outputDone_command ho (i := .cbFeed n) hfeed nofun nofun hdone
  exact hfed.outputDone_command ho (i := .macTile n) ⟨hmac, hwin⟩ nofun nofun hstill

/-- From `t` to `u` the first `done` outputs of the filter are computed. -/
structure TilesReach (s : State) (r ic m : Nat) (oc oa wc : Int) (done : Nat) (t u : State) : Prop
    extends TilesDone s r ic m done u where
  /-- The output holds REF if it did in `t` or is one of the first `done`. -/
  output : OutputDone s oc oa wc t ∨ s.cfg.InTile r ic m 0 done oc oa → OutputDone s oc oa wc u

omit ho in
theorem TilesDone.tilesReach_zero (h : TilesDone s r ic m 0 t) : TilesReach s r ic m oc oa wc 0 t t :=
  ⟨h, fun hdone => hdone.resolve_right (s.cfg.not_inTile_zero r ic m 0 oc oa)⟩

theorem TilesReach.next {u : State} {done n : Nat} (h : TilesReach s r ic m oc oa wc done t u)
    (hf : s.cfg.HasFilter r ic m) (hn : 1 ≤ n ∧ n ≤ s.params.rIter)
    (hplace : (done + n : Int) ≤ s.cfg.axes.subOutputs r) :
    TilesReach s r ic m oc oa wc (done + n) t (Machine.convTile done n u) := by
  refine ⟨(h.convTile hf hn hplace).run, fun hdone => h.convTile_reaches ho hf hn hplace ?_⟩
  rw [Cfg.inTile_add, Nat.zero_add, ← or_assoc] at hdone
  exact hdone.imp_left h.output

/-- The tiles of a filter. -/
theorem TilesDone.convTiles_reaches (h : TilesDone s r ic m 0 t) (hf : s.cfg.HasFilter r ic m)
    (hpos : 0 < s.cfg.axes.subOutputs r) :
    Reaches s oc oa wc (s.cfg.InTile r ic m 0 (s.cfg.axes.subOutputs r).toNat oc oa) t (Machine.convTiles t) := by
  obtain ⟨nout, hnout⟩ : ∃ nout : Nat, s.cfg.axes.subOutputs r = nout :=
    ⟨_, (Int.toNat_of_nonneg hpos.le).symm⟩
  have hR : 2 ≤ s.params.rIter := h.params ▸ ((params_ok_iff _).1 h.inv.params).1
  have hword : t.book.subNout.toInt = nout := by
    rw [h.book, ← hnout]
    exact toInt_ofInt_of_isCount (h.subOutputs_isCount r)
  have hend : nout ≤ (nout + s.params.rIter - 1) / s.params.rIter * s.params.rIter := by
    have := Nat.lt_mul_div_succ (nout + s.params.rIter - 1) (by omega : 0 < s.params.rIter)
    rw [Nat.mul_succ, mul_comm] at this
    omega
  rw [convTiles_eq, h.params, hword, hnout, Int.toNat_natCast]
  have hloop := foldl_range_last (t := t) (Q := fun _ _ => True)
    (f := fun u k => Machine.convTile (k * s.params.rIter) (min u.params.rIter (nout - k * s.params.rIter)) u)
    (P := fun k u => TilesReach s r ic m oc oa wc (min nout (k * s.params.rIter)) t u)
    (n := (nout + s.params.rIter - 1) / s.params.rIter) ?_ ?_
  · obtain ⟨hrun, hout⟩ := hloop.1
    rw [min_eq_left hend] at hout
    exact ⟨hrun.toConvHolds, hout⟩
  · intro k hk u hu
    have hk' : k * s.params.rIter < nout :=
      lt_of_mem_tileStarts (List.mem_map.2 ⟨k, List.mem_range.2 hk, rfl⟩)
    have hnext : min nout ((k + 1) * s.params.rIter) =
        k * s.params.rIter + min s.params.rIter (nout - k * s.params.rIter) := by
      rw [Nat.succ_mul]
      omega
    rw [min_eq_right hk'.le] at hu
    rw [hu.params, hnext]
    exact ⟨hu.next ho hf ⟨by omega, min_le_left _ _⟩ (by rw [hnout]; omega), trivial⟩
  · rw [Nat.zero_mul, Nat.min_zero]
    exact h.tilesReach_zero

/-- One filter of CONV, with and without outputs. -/
theorem ConvHolds.convFilter_reaches (h : ConvHolds s t) (hf : s.cfg.HasFilter r ic m) :
    Reaches s oc oa wc (s.cfg.InTile r ic m 0 (s.cfg.axes.subOutputs r).toNat oc oa) t (convFilter r ic m t) := by
  have hprimed : OutputDone s oc oa wc t → OutputDone s oc oa wc (initRing (convContext r ic m t)) :=
    (h.context r ic m).outputDone_command ho (i := .cbInit) (h.filter_ready hf).1 nofun nofun
  rcases (h.axes.subOutputs_nonneg r).eq_or_lt with hnone | hpos
  · rw [h.convFilter_empty hf hnone.symm, ← hnone, Int.toNat_zero]
    exact ⟨h.primed hf, fun hdone => hprimed (hdone.resolve_right (s.cfg.not_inTile_zero r ic m 0 oc oa))⟩
  · rw [h.convFilter_tiles hf hpos]
    obtain ⟨hrun, hout⟩ := (h.tilesDone_zero hf).convTiles_reaches ho hf hpos
    have hstaged : OutputDone s oc oa wc t → OutputDone s oc oa wc (stageKernel (initRing (convContext r ic m t))) :=
      fun hdone => (h.primed hf).outputDone_command ho (i := .kstage) (h.filter_ready hf).2 nofun nofun (hprimed hdone)
    exact ⟨hrun, fun hdone => hout (hdone.imp_left hstaged)⟩

omit ho

/-- A loop along the run. -/
theorem ConvHolds.foldl_reaches {f : State → Nat → State} {n : Nat} {E : Nat → Prop} (h : ConvHolds s t)
    (hstep : ∀ k < n, ∀ u, ConvHolds s u → Reaches s oc oa wc (E k) u (f u k)) :
    Reaches s oc oa wc (∃ k < n, E k) t ((List.range n).foldl f t) := by
  induction n with
  | zero => exact ⟨h, fun hdone => hdone.resolve_right (by simp)⟩
  | succ n ih =>
    obtain ⟨hrun, hout⟩ := ih fun k hk => hstep k (by omega)
    obtain ⟨hrun', hout'⟩ := hstep n (by omega) _ hrun
    rw [List.range_succ, List.foldl_append]
    refine ⟨hrun', ?_⟩
    rintro (hdone | ⟨k, hk, hE⟩)
    · exact hout' (.inl (hout (.inl hdone)))
    · rcases Nat.lt_succ_iff_lt_or_eq.1 hk with hlt | rfl
      · exact hout' (.inl (hout (.inr ⟨k, hlt, hE⟩)))
      · exact hout' (.inr hE)

include ho

/-- The loop nest of CONV. -/
theorem ConvHolds.convLoops_reaches (h : ConvHolds s t) :
    Reaches s oc oa wc
      (∃ r < s.cfg.axes.classCount.toNat, ∃ ic < s.cfg.inC.toInt.toNat, ∃ m < s.cfg.chMult.toInt.toNat,
        s.cfg.InTile r ic m 0 (s.cfg.axes.subOutputs r).toNat oc oa) t (Machine.convLoops t) := by
  unfold Machine.convLoops
  rw [h.decCount]
  refine h.foldl_reaches fun r hr u hu => ?_
  rw [hu.cfg]
  refine hu.foldl_reaches fun ic hic v hv => ?_
  rw [hv.cfg]
  exact hv.foldl_reaches fun m hm w hw => hw.convFilter_reaches ho ⟨by omega, by omega, by omega⟩

end

/-- Every output is one of a tile (10_state.md R61, 45_decomposer.md R333). -/
theorem Cfg.HasOutput.exists_inTile {c : Cfg} (hc : ShapeLegal c) {oc oa wc : Int} (ho : c.HasOutput oc oa wc) :
    ∃ r < c.axes.classCount.toNat, ∃ ic < c.inC.toInt.toNat, ∃ m < c.chMult.toInt.toNat,
      c.InTile r ic m 0 (c.axes.subOutputs r).toNat oc oa := by
  obtain ⟨-, -, hmult⟩ := hc.kernel
  obtain ⟨⟨hr0, hr1⟩, ⟨hk0, hk1⟩, hoa⟩ := (hc.axes.output_of_class_iff oa _ _).2 ⟨ho.ring, rfl, rfl⟩
  have hic0 := Int.ediv_nonneg ho.channel.1 hmult.le
  have hic1 := Int.ediv_lt_of_lt_mul hmult ho.channel.2
  have hm0 := Int.emod_nonneg oc hmult.ne'
  have hm1 := Int.emod_lt_of_pos oc hmult
  refine ⟨(oa % c.axes.classCount).toNat, by omega, (oc / c.chMult.toInt).toNat, by omega,
    (oc % c.chMult.toInt).toNat, by omega, ?_, (oa / c.axes.classCount).toNat, ?_, ?_⟩
  · rw [Int.toNat_of_nonneg hic0, Int.toNat_of_nonneg hm0]
    exact Int.ediv_mul_add_emod oc _
  · rw [Int.toNat_of_nonneg hr0]
    omega
  · rw [Nat.zero_add, Int.toNat_of_nonneg hk0, Int.toNat_of_nonneg hr0]
    exact hoa.symm

/-! ### CONV on any memory (46_conv_sequencer.md R357) -/

/-- A CONV that ends with CAUSE 0 accepted its configuration and ran to its end. -/
theorem execConv_succeeds {s t : State} (h : exec .conv s = .next t) (hok : t.cause = 0) :
    (ConfigLegal s.params s.cfg ∧ checkShiftArray s.cfg s.mem = none) ∧
      t = (releaseScratch (convLoops (convStart s)).close).finish 0 := by
  refine ⟨?_, exec_succeeds h hok⟩
  rcases startCall_cases convolve s with ⟨e, -, hreject⟩ | ⟨r, -, hrefuse⟩ | ⟨hv, -⟩
  · cases hreject.symm.trans h
    exact absurd hok (raiseErr_cause_ne_zero e s.close)
  · cases hrefuse.symm.trans h
  · exact callVerdict_accept.1 hv

/-- A byte at an address that memory does not have is never written: a command's addresses wrap
(20_memory.md R102, R103). -/
theorem keptByConv_read_beyond {a : Nat} (ha : Config.addressSpace ≤ a) (b : Byte) :
    KeptByConv fun s => s.mem.read a = b := by
  have hstores (l : List Store) (s : State) (hs : s.mem.read a = b) : (s.mem.applyStores l).read a = b := by
    rw [read_applyStores_outside, hs]
    rw [← Bool.not_eq_true, storesCover_iff]
    rintro ⟨st, -, i, -, rfl⟩
    exact absurd (wrapAddr_lt _) ha.not_gt
  exact {
    close := fun _ => id
    release := fun s hs => by
      refine (read_forgetRange_outside fun i _ => ?_).trans hs
      exact ((wrapAddr_lt _).trans_le ha).ne'
    writeIc := fun _ _ => id
    writeM := fun _ _ => id
    writeRes := fun _ _ => id
    writeJ0 := fun _ _ => id
    decompose := fun _ => id
    clearStaging := fun s => hstores _ s
    initRing := fun s => hstores _ s
    stageKernel := fun s => hstores _ s
    feedRing := fun _ s => hstores _ s
    computeTile := fun _ s => hstores _ s
    writeTile := fun s => hstores _ s }

theorem SameButForm.callOpen {s t : State} (h : SameButForm s t) (ht : CallOpen t) : CallOpen s := by
  obtain ⟨-⟩ := h
  obtain ⟨hparams, hconfig, h1, h2, h3, h4, h5, h6, h7, h8⟩ := ht
  exact ⟨hparams, hconfig, h1, h2, h3, h4, h5, h6, h7, h8⟩

theorem SameButForm.readsAlike {s t : State} (h : SameButForm s t) : ReadsAlike s.mem t.mem := by
  obtain ⟨hm⟩ := h
  exact hm

theorem ReadsAlike.axisOut_eq {c : Cfg} {m m' : Memory} (h : ReadsAlike m m') (oc oa wc : Int) :
    axisOut c m' oc oa wc = axisOut c m oc oa wc := by
  simp only [axisOut, axisSum, ringSample, inputElem, kernelElem, biasElem, finishAcc, multElem, shiftElem, h.load_eq]

/-- The end of CONV's loops, from any memory: an open call in which every output holds REF and no byte outside
the footprint has changed. -/
structure LoopsCompute (s t : State) : Prop where
  /-- The call is open. -/
  callOpen : CallOpen t
  /-- The configuration is the one CONV began with. -/
  setup : t.params = s.params ∧ t.cfg = s.cfg
  /-- The outputs. -/
  outputs : ∀ oc oa wc : Int, s.cfg.HasOutput oc oa wc → OutputDone s oc oa wc t
  /-- The bytes the call may not write. -/
  frame : ∀ a < Config.addressSpace, writableByCall s.params s.cfg a = false → t.mem.read a = s.mem.read a

theorem convLoops_compute {s : State} (hp : s.params.ok = true) (hlegal : ConfigLegal s.params s.cfg)
    (hshift : checkShiftArray s.cfg s.mem = none) : LoopsCompute s (convLoops (convStart s)) := by
  obtain ⟨s', hsame, hstart, hrun⟩ := exists_convHolds hp hlegal hshift
  have hcfg : s'.cfg = s.cfg := hsame.cfg
  have hparams : s'.params = s.params := hsame.params
  have hloops := hstart.convLoops
  have hend : ConvHolds s' (convLoops (convStart s')) := hrun.convLoops.toConvHolds
  refine ⟨hloops.callOpen hend.callOpen, ⟨?_, ?_⟩, fun oc oa wc ho => ?_, fun a ha hwrite => ?_⟩
  · rw [← hloops.params, hend.params, hparams]
  · rw [← hloops.cfg, hend.cfg, hcfg]
  · have hdone := (hrun.convLoops_reaches (hcfg ▸ ho)).output
      (.inr (Cfg.HasOutput.exists_inTile (hcfg ▸ hlegal.shapeLegal) (hcfg ▸ ho)))
    rw [OutputDone, hloops.readsAlike.load_eq, hcfg, hsame.readsAlike.axisOut_eq] at hdone
    exact hdone
  · rw [← hloops.readsAlike a ha, hend.frame a (by rwa [hparams, hcfg])]
    exact hsame.readsAlike a ha

/-- The release of the scratch region at the end of CONV changes no byte of the output tensor and none outside the
footprint of the call (46_conv_sequencer.md R361). -/
theorem LoopsCompute.release {s t : State} (h : LoopsCompute s t) {a : Nat}
    (ha : s.cfg.outputRegion.has a = true ∨ writableByCall s.params s.cfg a = false) :
    (releaseScratch t.close).mem.read a = t.mem.read a := by
  rw [← h.setup.1, ← h.setup.2] at ha
  have hend : commandWrites .callEnd t.params t.cfg a = false := by
    rcases ha with hout | hwrite
    · exact h.callOpen.commandWrites_of_output hout nofun nofun
    · exact h.callOpen.commandWrites_eq_false hwrite .callEnd
  exact h.callOpen.read_releaseScratch hend

/-- Settles O59: every output is one of a tile, which leaves REF there; and CONV keeps to its footprint. -/
theorem convComputesReference : Obligations.ConvComputesReference := by
  intro s t hp hexec hok
  obtain ⟨⟨hlegal, hshift⟩, rfl⟩ := execConv_succeeds hexec hok
  have hloops := convLoops_compute hp hlegal hshift
  refine ⟨fun oc oy ox hoc0 hoc1 hoy0 hoy1 hox0 hox1 => ?_, fun a hwrite => ?_⟩
  · obtain ⟨oa, wc, hoa, hwc, rfl, rfl⟩ := (exists_output_iff s.cfg fun y x => y = oy ∧ x = ox).2
      ⟨oy, ox, ⟨hoy0, hoy1⟩, ⟨hox0, hox1⟩, rfl, rfl⟩
    have ho : s.cfg.HasOutput oc oa wc := ⟨⟨hoc0, hoc1⟩, hoa, hwc⟩
    rw [← outputAddrAc_eq, ← axisOut_eq_refOut]
    exact (hlegal.outputElem_congr ho fun a ha => hloops.release (.inl ha)).trans (hloops.outputs oc oa wc ho)
  · rcases Nat.lt_or_ge a Config.addressSpace with ha | ha
    · exact (hloops.release (.inr hwrite)).trans (hloops.frame a ha hwrite)
    · exact (keptByConv_read_beyond ha (s.mem.read a)).convolve (s := openCall s.close) rfl

end Sys2Proof.Machine

/-! SUPPORT. The proofs of the family 60_exceptions: which causes the checks of a command report, and how a command
ends that reports one (O15, O17). -/

namespace Sys2Proof.Machine

/-! ### The causes a check reports (60_exceptions.md R393) -/

/-- The check passes or fails with one of the listed causes. -/
def RaisesOnly (causes : List Cause) (check : Option CmdError) : Prop := ∀ e, check = some e → e.cause ∈ causes

section
variable {causes causes' : List Cause} {c : Cause}

theorem RaisesOnly.mono {check : Option CmdError} (h : RaisesOnly causes check) (hsub : causes ⊆ causes') :
    RaisesOnly causes' check := fun e he => hsub (h e he)

theorem raisesOnly_none : RaisesOnly causes none := nofun

@[simp] theorem raisesOnly_require (hc : c ∈ causes) (test : Bool) (i : Nat) :
    RaisesOnly causes (require test c i) := by
  intro e he
  obtain ⟨-, rfl⟩ := require_eq_some he
  exact hc

@[simp] theorem raisesOnly_requireRange (hc : c ∈ causes) (w : Word) (lo hi : Int) (i : Nat) :
    RaisesOnly causes (requireRange w lo hi c i) := raisesOnly_require hc _ i

theorem map_require_raisesOnly {α : Type} (hc : c ∈ causes) (l : List α) (test : α → Bool) (info : α → Nat) :
    ∀ check ∈ l.map (fun x => require (test x) c (info x)), RaisesOnly causes check :=
  List.forall_mem_map.2 fun _ _ => raisesOnly_require hc _ _

/-- The first failing check is one of the checks. -/
theorem RaisesOnly.first {checks : List (Option CmdError)} (h : ∀ check ∈ checks, RaisesOnly causes check) :
    RaisesOnly causes (firstFailure checks) := by
  induction checks with
  | nil => exact raisesOnly_none
  | cons check rest ih =>
    obtain ⟨hcheck, hrest⟩ := List.forall_mem_cons.1 h
    cases check with
    | none => exact ih hrest
    | some e => exact hcheck

end

/-- The causes of the shape and capacity checks (40_planner.md R172, R173). -/
def planCauses : List Cause := [.size, .pad, .layout, .precision, .capacity]

/-- The causes of the argument checks (46_conv_sequencer.md R352). -/
def argumentCauses : List Cause := [.nullPtr, .misaligned, .shift, .zeroPoint, .clampRange]

section
variable (p : Config.Params) (c : Cfg) (m : Memory)

theorem checkShape_raisesOnly : RaisesOnly planCauses (checkShape c) := by
  refine .first ?_
  rw [List.forall_mem_append, List.forall_mem_append]
  exact ⟨⟨by simp [planCauses], map_require_raisesOnly (by decide) _ _ _⟩, by simp [planCauses]⟩

theorem checkCapacity_raisesOnly : RaisesOnly planCauses (checkCapacity p c) :=
  .first (map_require_raisesOnly (by decide) _ _ _)

theorem shiftChecks_raiseOnly : ∀ check ∈ shiftChecks c, RaisesOnly argumentCauses check := by
  unfold shiftChecks
  cases c.precision <;> simp [argumentCauses]

theorem zeroPointChecks_raiseOnly : ∀ check ∈ zeroPointChecks c, RaisesOnly argumentCauses check := by
  unfold zeroPointChecks
  cases c.precision <;> simp [argumentCauses]

theorem clampChecks_raiseOnly : ∀ check ∈ clampChecks c, RaisesOnly argumentCauses check := by
  unfold clampChecks
  split <;> simp [argumentCauses]

theorem checkArgs_raisesOnly : RaisesOnly argumentCauses (checkArgs c) := by
  refine .first ?_
  simp only [List.forall_mem_append]
  exact ⟨⟨⟨⟨map_require_raisesOnly (by decide) _ _ _, map_require_raisesOnly (by decide) _ _ _⟩,
    shiftChecks_raiseOnly c⟩, zeroPointChecks_raiseOnly c⟩, clampChecks_raiseOnly c⟩

theorem checkShiftArray_raisesOnly : RaisesOnly argumentCauses (checkShiftArray c m) := by
  unfold checkShiftArray
  split
  · exact .first (map_require_raisesOnly (by decide) _ _ _)
  · exact raisesOnly_none

/-- The error of a rejected configuration is that of one of its checks (60_exceptions.md R394). -/
theorem cause_of_callVerdict_reject {e : CmdError} (h : callVerdict p c m = .reject e) :
    e.cause ∈ planCauses ++ argumentCauses := by
  have hplan : planCauses ⊆ planCauses ++ argumentCauses := List.subset_append_left _ _
  have hargs : argumentCauses ⊆ planCauses ++ argumentCauses := List.subset_append_right _ _
  have hchecks : RaisesOnly (planCauses ++ argumentCauses)
      (firstFailure [checkShape c, checkCapacity p c, checkArgs c]) :=
    .first (List.forall_mem_cons.2 ⟨(checkShape_raisesOnly c).mono hplan, List.forall_mem_cons.2
      ⟨(checkCapacity_raisesOnly p c).mono hplan, List.forall_mem_singleton.2
        ((checkArgs_raisesOnly c).mono hargs)⟩⟩)
  unfold callVerdict at h
  split at h
  next hfail =>
    cases h
    exact hchecks e hfail
  next =>
    split at h
    · cases h
    · split at h
      next hfail =>
        cases h
        exact hargs (checkShiftArray_raisesOnly c m e hfail)
      next =>
        split at h
        · cases h
        · split at h <;> cases h

end

section
variable (s : State) (n : Nat)

theorem needOpen_raisesOnly : RaisesOnly [.sequence] (needOpen s.status) := raisesOnly_require (by decide) _ _

theorem cbInitPre_raisesOnly : RaisesOnly [.sequence, .context] (cbInitPre s) :=
  .first (by simp [needOpen, needDecomposition, needChannel])

theorem cbFeedPre_raisesOnly : RaisesOnly [.sequence, .context] (cbFeedPre n s) :=
  .first (by simp [needOpen, needRing, needTileSize, needTilePlace])

theorem kstagePre_raisesOnly : RaisesOnly [.sequence, .context] (kstagePre s) :=
  .first (by simp [needOpen, needKernelPadding, needChannel])

theorem macTilePre_raisesOnly : RaisesOnly [.sequence, .context] (macTilePre n s) :=
  .first (by simp [needOpen, needRing, needStagedKernel, needTileSize, needTilePlace])

theorem reqWritePre_raisesOnly : RaisesOnly [.sequence] (reqWritePre s) :=
  .first (by simp [needOpen, needAccumulators])

end

/-! ### How a command ends that reports a cause (60_exceptions.md R391) -/

/-- The causes a command's checks report; the early return of MAC_TILE is no check. -/
def checkCauses (i : Instr) : List Cause :=
  match i with
  | .nop => []
  | .getsize => planCauses
  | .callBegin => planCauses ++ argumentCauses
  | .callEnd => [.sequence]
  | .conv => planCauses ++ argumentCauses
  | .decomp => [.sequence]
  | .cbInit => [.sequence, .context]
  | .cbFeed _ => [.sequence, .context]
  | .ksClear => [.sequence]
  | .kstage => [.sequence, .context]
  | .macTile _ => [.sequence, .context]
  | .reqWrite => [.sequence]

/-- STATUS as a failing check leaves it, but for ERR: BEGIN and CONV have closed the call. -/
def failStatus (i : Instr) (st : Status) : Status := if i = .callBegin ∨ i = .conv then st.close else st

/-- The two ways a command reports a cause (60_exceptions.md R391, 43_compute_loop.md R251). -/
inductive ErrorEnd (i : Instr) (s : State) : State → Prop where
  /-- One of its checks fails. -/
  | check (e : CmdError) : e.cause ∈ checkCauses i →
      ErrorEnd i s (State.raiseErr e { s with status := failStatus i s.status })
  /-- The early return of MAC_TILE. -/
  | underrun (n k : Nat) : i = .macTile n → ErrorEnd i s (underrunReturn k s)

section
variable {i : Instr} {s t : State}

theorem ErrorEnd.of_check {check : Option CmdError} {e : CmdError} (he : check = some e)
    (hcheck : RaisesOnly (checkCauses i) check) (hi : failStatus i s.status = s.status) :
    ErrorEnd i s (s.raiseErr e) := by
  have hend : ErrorEnd i s _ := .check e (hcheck e he)
  rwa [hi] at hend

theorem ErrorEnd.of_runCommand {pre : Option CmdError} (h : runCommand pre (commandEffect i) s = .next t)
    (herr : t.cause ≠ 0) (hpre : RaisesOnly (checkCauses i) pre) (hi : failStatus i s.status = s.status) :
    ErrorEnd i s t := by
  rcases runCommand_cases h with ⟨e, he, rfl⟩ | ⟨-, rfl⟩
  · exact .of_check he hpre hi
  · exact absurd rfl herr

theorem ErrorEnd.of_startCall {go : State → State} (h : startCall go s = .next t) (herr : t.cause ≠ 0)
    (hcauses : checkCauses i = planCauses ++ argumentCauses) (hi : failStatus i s.status = s.status.close) :
    ErrorEnd i s t := by
  rcases startCall_cases go s with ⟨e, hv, he⟩ | ⟨r, -, hr⟩ | ⟨-, ha⟩
  · cases he.symm.trans h
    have hend : ErrorEnd i s _ := .check e (hcauses ▸ cause_of_callVerdict_reject _ _ _ hv)
    rwa [hi] at hend
  · cases hr.symm.trans h
  · cases ha.symm.trans h
    exact absurd rfl herr

theorem ErrorEnd.of_getsize (h : execGetsize s = .next t) (herr : t.cause ≠ 0) : ErrorEnd .getsize s t := by
  unfold execGetsize at h
  split at h
  next he =>
    cases h
    exact .of_check he (.first (List.forall_mem_cons.2 ⟨checkShape_raisesOnly _,
      List.forall_mem_singleton.2 (checkCapacity_raisesOnly _ _)⟩)) rfl
  next =>
    cases h
    exact absurd rfl herr

theorem ErrorEnd.of_macTile {n : Nat} (h : execMacTile n s = .next t) (herr : t.cause ≠ 0) :
    ErrorEnd (.macTile n) s t := by
  rcases execMacTile_cases h with ⟨e, he, rfl⟩ | ⟨k, -, -, rfl⟩ | ⟨-, -, rfl⟩
  · exact .of_check he (macTilePre_raisesOnly s n) rfl
  · exact .underrun n k rfl
  · exact absurd rfl herr

theorem exec_errorEnd (h : exec i s = .next t) (herr : t.cause ≠ 0) : ErrorEnd i s t := by
  cases i with
  | nop => cases h; exact absurd rfl herr
  | getsize => exact .of_getsize h herr
  | callBegin => exact .of_startCall h herr rfl rfl
  | conv => exact .of_startCall h herr rfl rfl
  | macTile n => exact .of_macTile h herr
  | callEnd => exact .of_runCommand h herr (needOpen_raisesOnly s) rfl
  | decomp => exact .of_runCommand h herr (needOpen_raisesOnly s) rfl
  | ksClear => exact .of_runCommand h herr (needOpen_raisesOnly s) rfl
  | cbInit => exact .of_runCommand h herr (cbInitPre_raisesOnly s) rfl
  | cbFeed n => exact .of_runCommand h herr (cbFeedPre_raisesOnly s n) rfl
  | kstage => exact .of_runCommand h herr (kstagePre_raisesOnly s) rfl
  | reqWrite => exact .of_runCommand h herr (reqWritePre_raisesOnly s) rfl

end

/-! ### The codes of the causes (60_exceptions.md R393) -/

theorem zero_mem_causesOf (i : Instr) : 0 ∈ causesOf i := by cases i <;> exact List.mem_cons_self

theorem code_mem_causesOf {i : Instr} {c : Cause} (h : c ∈ checkCauses i) : c.code ∈ causesOf i := by
  have hcodes : (checkCauses i).map Cause.code ⊆ causesOf i := by
    cases i <;> simp [checkCauses, planCauses, argumentCauses, Cause.code, causesOf]
  exact hcodes (List.mem_map_of_mem h)

theorem underrun_not_mem_checkCauses (i : Instr) : .underrun ∉ checkCauses i := by
  cases i <;> simp [checkCauses, planCauses, argumentCauses]

theorem raiseErr_cause_toNat (e : CmdError) (s : State) : (s.raiseErr e).cause.toNat = e.cause.code := by
  rw [raiseErr_cause]
  cases e.cause <;> rfl

theorem raiseErr_cause_ne_underrun {e : CmdError} (he : e.cause ≠ .underrun) (s : State) :
    (s.raiseErr e).cause ≠ 19 := by
  rw [raiseErr_cause]
  cases h : e.cause with
  | underrun => exact absurd h he
  | _ => decide

/-- Settles O15: a failing check raises its error on the state with STATUS as `failStatus` has it, and no check
reports code 19, which is the early return of MAC_TILE. -/
theorem errorChangesNothingElse : Obligations.ErrorChangesNothingElse := by
  intro i s t hexec herr
  cases exec_errorEnd hexec herr with
  | check e he =>
    have hne : e.cause ≠ .underrun := fun h => underrun_not_mem_checkCauses i (h ▸ he)
    exact ⟨_, rfl, by rw [if_neg (raiseErr_cause_ne_underrun hne _)]; rfl⟩
  | underrun n k hi =>
    subst hi
    exact ⟨_, rfl, rfl⟩

/-- Settles O17: the cause is 0, the early return's 19, or that of a check, which the list names. -/
theorem causesPerCommand : Obligations.CausesPerCommand := by
  intro i s t hexec
  by_cases herr : t.cause = 0
  · exact herr ▸ zero_mem_causesOf i
  · cases exec_errorEnd hexec herr with
    | check e he => exact raiseErr_cause_toNat e _ ▸ code_mem_causesOf he
    | underrun n k hi =>
      subst hi
      have hcode : (underrunReturn k s).cause.toNat = 19 := rfl
      simp [hcode, causesOf]

end Sys2Proof.Machine
